-- ==== Sys2Proof/Word.lean ====
section
/-! DEFINITION. The word types of the Ixorn Basja and the plainest helpers over them: sign extension from a
named width (R9), little-endian bytes (R6) and association lists with rising keys. -/

namespace Sys2Proof

/-- A scalar register or a global address (R10, R206). -/
abbrev Word := BitVec 64

/-- The smallest addressable unit of every memory. -/
abbrev Byte := BitVec 8

/-- A halfword, the unit of instruction fetch (R25). -/
abbrev Half := BitVec 16

/-- The bytes of a little-endian value of `n` bytes, lowest address first (R6). -/
def leBytes : Nat → Nat → List Byte
  | 0, _ => []
  | n + 1, v => BitVec.ofNat 8 v :: leBytes n (v / 256)

/-- The value of bytes that stand in little-endian order (R6). -/
def leValue : List Byte → Nat
  | [] => 0
  | b :: bs => b.toNat + 256 * leValue bs

/-- `sext(x, w)` of R9 on the low `w` bits of a natural number, as a 64-bit word. -/
def sextNat (w v : Nat) : Word := (BitVec.ofNat w v).signExtend 64

/-- Bits [hi:lo] of a natural number. -/
def bitsOf (v hi lo : Nat) : Nat := (v >>> lo) % 2 ^ (hi + 1 - lo)

/-- A table from natural-number keys to values: a list whose keys rise. -/
abbrev Tbl (α : Type) := List (Nat × α)

/-- The value at a key, if the table lists it. -/
def tblGet? {α : Type} : Tbl α → Nat → Option α
  | [], _ => none
  | (k, v) :: t, x => if k = x then some v else tblGet? t x

/-- The table with one key set, keeping the keys in rising order. -/
def tblPut {α : Type} : Tbl α → Nat → α → Tbl α
  | [], x, v => [(x, v)]
  | (k, w) :: t, x, v =>
    if x < k then (x, v) :: (k, w) :: t
    else if x = k then (x, v) :: t
    else (k, w) :: tblPut t x v

/-- The table without one key. -/
def tblDel {α : Type} : Tbl α → Nat → Tbl α
  | [], _ => []
  | (k, w) :: t, x => if k = x then tblDel t x else (k, w) :: tblDel t x

/-- The list without its element at an index (unchanged past the end). -/
def dropNth {α : Type} : List α → Nat → List α
  | [], _ => []
  | _ :: t, 0 => t
  | a :: t, n + 1 => a :: dropNth t n

end Sys2Proof
end

