-- ==== Sys2Proof/Syntax.lean ====
section
/-! DEFINITION. The instructions and events of the Ixorn Basja: one constructor for every row of
spec/opcode_table.json. The rows with an encoding are instruction groups (R26 to R44); the others are the
indivisible steps of its engines, its distributor, its networks and its host (95_what_each_step_holds.md). -/

namespace Sys2Proof

/-- A scalar register number s0 to s31 (R27, R30). -/
abbrev SReg := BitVec 5
/-- A vector register number v0 to v31. -/
abbrev VReg := BitVec 5
/-- A predicate register number p0 to p7. -/
abbrev PReg := BitVec 3
/-- A tile register number t0 to t7. -/
abbrev TReg := BitVec 3
/-- An accumulator number a0 to a3. -/
abbrev AReg := BitVec 2

/-- The element formats of R55, in the order of their codes. -/
inductive Fmt where
  | i8 | n8 | i16 | n16 | i32 | n32 | bf16 | f16 | f32 | t8 | t6 | i64 | n64 | f64
  deriving DecidableEq, Repr

/-- The precision of a page-1 instruction: q[0] (R31). -/
inductive Prec where
  | f32 | f64
  deriving DecidableEq, Repr

/-- The operand size of an atomic: q[1:0] of page 4 (R31, R258). -/
inductive AmoSize where
  | word | dword
  deriving DecidableEq, Repr

/-- The five scopes (R32, R242). -/
inductive Scope where
  | core | quad | die | dev | pod
  deriving DecidableEq, Repr

/-- The order field of EXT ORD (R32, R243). -/
inductive Order where
  | plain | acquire | release | both
  deriving DecidableEq, Repr

/-- The cache hint of EXT ORD (R32, R218). -/
inductive Hint where
  | normal | stream | keep | bypass
  deriving DecidableEq, Repr

/-- What an EXT ORD prefix carries; a group without one has the default (R32). -/
structure Ord where
  scope : Scope := .core
  order : Order := .plain
  hint  : Hint := .normal
  deriving DecidableEq, Repr

/-- The trailer of a packet on a link (R340): its link sequence number, the highest received intact in the other direction, the
beats freed by class, and whether its CRC is an error tail. The CRC itself is not modelled: a packet that fails it is an event
of its own. -/
structure Trailer where
  lseq : BitVec 16 := 0
  lack : BitVec 16 := 0
  slots : Vector (BitVec 16) 4 := Vector.replicate 4 0
  errorTail : Bool := false
  deriving DecidableEq, Repr

/-- A fabric packet: the header fields of R338, its payload in bytes and its trailer on the link (R340); beside them the
virtual lane of the link that carries it (R337), of a multicast copy the members that it is for, each with the SEQ of its
flow (R349; log entry 106), of a load how many bytes it reads (R345), and which of its payload's beats are poisoned (R327; log entry
12). -/
structure Packet where
  target : BitVec 46
  dst    : BitVec 18
  src    : BitVec 18
  sep    : BitVec 12
  kind   : BitVec 4
  cls    : BitVec 2
  mc     : Bool
  rot    : BitVec 3
  port   : BitVec 4
  seq    : BitVec 11
  rtx    : Bool
  payload : List Byte
  len    : BitVec 8 := 0
  trailer : Trailer := {}
  lane   : Bool := false
  members : List (Nat × BitVec 11) := []
  size   : Nat := 1
  poison : List Nat := []
  deriving DecidableEq, Repr

/-- Every row of spec/opcode_table.json: instruction groups first, then the steps of the other agents.
An event that names a message gives its place in the list of messages in flight; one that names a frame, core,
slice, port or die gives its number. -/
inductive Instr where
  /-- R88. Base word 0x0000 raises ILLEGAL with or without prefixes and has no other effect. -/
  | udf (hw : BitVec 16) (pos : BitVec 3)
  /-- R44. A group whose halfwords form no instruction (unlisted major, fn or sub, page 0 or 11-15, EXT kind 0b11, nonzero must-be-zero field, refused prefix, fifth prefix) raises ILLEGAL with no other effect. -/
  | nonInstructionPattern (hw : BitVec 16) (pos : BitVec 3)
  /-- R88. Changes nothing but the PC. -/
  | nop
  /-- R89. Retires and offers the core to another ready frame of the same core. -/
  | yield
  /-- R90. After draining, completing earlier groups, posted stores and engine commands, reports the chunk complete and releases the frame. -/
  | done
  /-- R91. Ends the chunk as DONE does but reports it abandoned. -/
  | doneAb
  /-- R92. Raises a precise BREAK trap with TRAPVAL = n. -/
  | brk (n : BitVec 8)
  /-- R75. S[d] := S[a] + S[b] modulo 2^64. -/
  | add (d : SReg) (a : SReg) (b : SReg)
  /-- R75. S[d] := S[a] - S[b] modulo 2^64. -/
  | sub (d : SReg) (a : SReg) (b : SReg)
  /-- R75. S[d] := S[a] AND S[b]. -/
  | and (d : SReg) (a : SReg) (b : SReg)
  /-- R75. S[d] := S[a] OR S[b]. -/
  | or (d : SReg) (a : SReg) (b : SReg)
  /-- R75. S[d] := S[a] XOR S[b]. -/
  | xor (d : SReg) (a : SReg) (b : SReg)
  /-- R75. S[d] := S[a] AND NOT S[b]. -/
  | andn (d : SReg) (a : SReg) (b : SReg)
  /-- R75. Shifts S[a] left by S[b][5:0]. -/
  | sll (d : SReg) (a : SReg) (b : SReg)
  /-- R75. Shifts S[a] right logically by S[b][5:0]. -/
  | srl (d : SReg) (a : SReg) (b : SReg)
  /-- R75. Shifts S[a] right arithmetically by S[b][5:0]. -/
  | sra (d : SReg) (a : SReg) (b : SReg)
  /-- R75. Rotates S[a] right by S[b][5:0]. -/
  | ror (d : SReg) (a : SReg) (b : SReg)
  /-- R75. Sets S[d] to 1 when signed S[a] < S[b]. -/
  | slt (d : SReg) (a : SReg) (b : SReg)
  /-- R75. Sets S[d] to 1 when unsigned S[a] < S[b]. -/
  | sltn (d : SReg) (a : SReg) (b : SReg)
  /-- R75. S[d] := low 64 bits of S[a] x S[b]. -/
  | mul (d : SReg) (a : SReg) (b : SReg)
  /-- R75. S[d] := high 64 bits of the signed product. -/
  | mulh (d : SReg) (a : SReg) (b : SReg)
  /-- R75. S[d] := high 64 bits of the unsigned product. -/
  | mulhn (d : SReg) (a : SReg) (b : SReg)
  /-- R75. Sets S[d] to 1 when S[a] == S[b]. -/
  | seq (d : SReg) (a : SReg) (b : SReg)
  /-- R76. Signed division truncated toward zero, with defined results for zero divisor and overflow. -/
  | div (d : SReg) (a : SReg) (b : SReg)
  /-- R76. Unsigned division. -/
  | divn (d : SReg) (a : SReg) (b : SReg)
  /-- R76. Signed remainder taking the sign of S[a]. -/
  | rem (d : SReg) (a : SReg) (b : SReg)
  /-- R76. Unsigned remainder. -/
  | remn (d : SReg) (a : SReg) (b : SReg)
  /-- R75. Signed minimum of S[a] and S[b]. -/
  | min (d : SReg) (a : SReg) (b : SReg)
  /-- R75. Signed maximum of S[a] and S[b]. -/
  | max (d : SReg) (a : SReg) (b : SReg)
  /-- R75. Unsigned minimum. -/
  | minn (d : SReg) (a : SReg) (b : SReg)
  /-- R75. Unsigned maximum. -/
  | maxn (d : SReg) (a : SReg) (b : SReg)
  /-- R78. Adds the sign-extended immediate to S[a]. -/
  | addi (d : SReg) (a : SReg) (imm : Word)
  /-- R78. ANDs S[a] with the sign-extended immediate. -/
  | andi (d : SReg) (a : SReg) (imm : Word)
  /-- R78. ORs S[a] with the sign-extended immediate. -/
  | ori (d : SReg) (a : SReg) (imm : Word)
  /-- R78. XORs S[a] with the sign-extended immediate. -/
  | xori (d : SReg) (a : SReg) (imm : Word)
  /-- R78. Shifts S[a] left by the immediate 0-63. -/
  | slli (d : SReg) (a : SReg) (imm : Word)
  /-- R78. Shifts S[a] right logically by the immediate. -/
  | srli (d : SReg) (a : SReg) (imm : Word)
  /-- R78. Shifts S[a] right arithmetically by the immediate. -/
  | srai (d : SReg) (a : SReg) (imm : Word)
  /-- R78. Sets S[d] to 1 when signed S[a] < immediate. -/
  | slti (d : SReg) (a : SReg) (imm : Word)
  /-- R79. Loads the sign-extended immediate into S[d]. -/
  | li (d : SReg) (imm : Word)
  /-- R79. Replaces bits [63:48] of S[d] with the 16-bit immediate. -/
  | lih (d : SReg) (imm : Word)
  /-- R77. Counts leading zero bits of S[a]. -/
  | clz (d : SReg) (a : SReg)
  /-- R77. Counts trailing zero bits of S[a]. -/
  | ctz (d : SReg) (a : SReg)
  /-- R77. Counts one bits of S[a]. -/
  | popc (d : SReg) (a : SReg)
  /-- R77. Sign-extends S[a] from 8, 16 or 32 bits. -/
  | sext (d : SReg) (a : SReg) (sz : BitVec 2)
  /-- R81. Loads a sign-extended value from the local scratchpad after BOUND, ALIGN and ACCESS checks. -/
  | ldl (d : SReg) (a : SReg) (imm : Word) (sz : BitVec 2)
  /-- R81. Loads a zero-extended value from the local scratchpad. -/
  | ldln (d : SReg) (a : SReg) (imm : Word) (sz : BitVec 2)
  /-- R81. Stores the low bytes of S[d] to the local scratchpad. -/
  | stl (d : SReg) (a : SReg) (imm : Word) (sz : BitVec 2)
  /-- R83. Branches when S[a] == S[b]. -/
  | beq (a : SReg) (b : SReg) (imm : Word)
  /-- R83. Branches when S[a] != S[b]. -/
  | bne (a : SReg) (b : SReg) (imm : Word)
  /-- R83. Branches when signed S[a] < S[b]. -/
  | blt (a : SReg) (b : SReg) (imm : Word)
  /-- R83. Branches when signed S[a] >= S[b]. -/
  | bge (a : SReg) (b : SReg) (imm : Word)
  /-- R83. Branches when unsigned S[a] < S[b]. -/
  | bltn (a : SReg) (b : SReg) (imm : Word)
  /-- R83. Branches when unsigned S[a] >= S[b]. -/
  | bgen (a : SReg) (b : SReg) (imm : Word)
  /-- R84. Jumps PC-relative. -/
  | j (imm : Word)
  /-- R84. Writes the link register and jumps PC-relative. -/
  | jal (imm : Word)
  /-- R85. Jumps to S[a] with bit 0 cleared. -/
  | jr (a : SReg)
  /-- R85. Writes the link register and jumps to S[a]. -/
  | jalr (a : SReg)
  /-- R85. Jumps to S[a] and pops the return-address predictor. -/
  | ret (a : SReg)
  /-- R94. Rounded floating-point addition in f32 or f64. -/
  | fadd (p : Prec) (d : SReg) (a : SReg) (b : SReg)
  /-- R94. Rounded floating-point subtraction. -/
  | fsub (p : Prec) (d : SReg) (a : SReg) (b : SReg)
  /-- R94. Rounded floating-point multiplication. -/
  | fmul (p : Prec) (d : SReg) (a : SReg) (b : SReg)
  /-- R94. Rounded floating-point division on the shared divider. -/
  | fdiv (p : Prec) (d : SReg) (a : SReg) (b : SReg)
  /-- R94. Floating-point minimum under R64. -/
  | fmin (p : Prec) (d : SReg) (a : SReg) (b : SReg)
  /-- R94. Floating-point maximum under R64. -/
  | fmax (p : Prec) (d : SReg) (a : SReg) (b : SReg)
  /-- R94. Replaces the sign of S[a] by that of S[b]. -/
  | fsgnj (p : Prec) (d : SReg) (a : SReg) (b : SReg)
  /-- R94. Rounded square root on the shared square-root unit. -/
  | fsqrt (p : Prec) (d : SReg) (a : SReg)
  /-- R95. Fused S[a] x S[b] + S[d]. -/
  | fma (p : Prec) (d : SReg) (a : SReg) (b : SReg)
  /-- R95. Fused S[a] x S[b] - S[d]. -/
  | fms (p : Prec) (d : SReg) (a : SReg) (b : SReg)
  /-- R95. Fused -(S[a] x S[b]) + S[d]. -/
  | fnma (p : Prec) (d : SReg) (a : SReg) (b : SReg)
  /-- R96. Sets S[d] to 1 when the operands are equal. -/
  | feq (p : Prec) (d : SReg) (a : SReg) (b : SReg)
  /-- R96. Sets S[d] to 1 when S[a] < S[b]. -/
  | flt (p : Prec) (d : SReg) (a : SReg) (b : SReg)
  /-- R96. Sets S[d] to 1 when S[a] <= S[b]. -/
  | fle (p : Prec) (d : SReg) (a : SReg) (b : SReg)
  /-- R96. Sets S[d] to 1 when either operand is a NaN. -/
  | fun (p : Prec) (d : SReg) (a : SReg) (b : SReg)
  /-- R97. Writes a one-hot class mask of S[a]. -/
  | fclass (p : Prec) (d : SReg) (a : SReg)
  /-- R97. Clears the sign bit. -/
  | fabs (p : Prec) (d : SReg) (a : SReg)
  /-- R97. Inverts the sign bit. -/
  | fneg (p : Prec) (d : SReg) (a : SReg)
  /-- R98. Converts an integer to f32 or f64. -/
  | fcvtFI (f : Fmt) (p : Prec) (d : SReg) (a : SReg)
  /-- R98. Converts f32 or f64 to a saturated integer. -/
  | fcvtIF (f : Fmt) (p : Prec) (d : SReg) (a : SReg)
  /-- R98. Converts between f32 and f64. -/
  | fcvtFF (p : Prec) (d : SReg) (a : SReg)
  /-- R98. Converts between f32/f64 and T8/T6 in the direction given by b. -/
  | fcvtT (f : Fmt) (p : Prec) (d : SReg) (a : SReg) (toFloat : Bool)
  /-- R101. Element-wise addition, optionally saturating. -/
  | vadd (sat : Bool) (f : Fmt) (d : VReg) (a : VReg) (b : VReg) (pr : PReg)
  /-- R101. Element-wise subtraction, optionally saturating. -/
  | vsub (sat : Bool) (f : Fmt) (d : VReg) (a : VReg) (b : VReg) (pr : PReg)
  /-- R101. Element-wise multiplication. -/
  | vmul (f : Fmt) (d : VReg) (a : VReg) (b : VReg) (pr : PReg)
  /-- R101. High half of the integer element product. -/
  | vmulh (f : Fmt) (d : VReg) (a : VReg) (b : VReg) (pr : PReg)
  /-- R101. Element-wise minimum. -/
  | vmin (f : Fmt) (d : VReg) (a : VReg) (b : VReg) (pr : PReg)
  /-- R101. Element-wise maximum. -/
  | vmax (f : Fmt) (d : VReg) (a : VReg) (b : VReg) (pr : PReg)
  /-- R101. Element-wise absolute value. -/
  | vabs (f : Fmt) (d : VReg) (a : VReg) (pr : PReg)
  /-- R101. Element-wise negation. -/
  | vneg (f : Fmt) (d : VReg) (a : VReg) (pr : PReg)
  /-- R101. Element-wise bitwise AND. -/
  | vand (f : Fmt) (d : VReg) (a : VReg) (b : VReg) (pr : PReg)
  /-- R101. Element-wise bitwise OR. -/
  | vor (f : Fmt) (d : VReg) (a : VReg) (b : VReg) (pr : PReg)
  /-- R101. Element-wise bitwise XOR. -/
  | vxor (f : Fmt) (d : VReg) (a : VReg) (b : VReg) (pr : PReg)
  /-- R101. Element-wise AND NOT. -/
  | vandn (f : Fmt) (d : VReg) (a : VReg) (b : VReg) (pr : PReg)
  /-- R101. Element-wise left shift. -/
  | vshl (f : Fmt) (d : VReg) (a : VReg) (b : VReg) (pr : PReg)
  /-- R101. Element-wise logical right shift. -/
  | vshr (f : Fmt) (d : VReg) (a : VReg) (b : VReg) (pr : PReg)
  /-- R101. Element-wise arithmetic right shift. -/
  | vsar (f : Fmt) (d : VReg) (a : VReg) (b : VReg) (pr : PReg)
  /-- R101. Element-wise rotate right. -/
  | vror (f : Fmt) (d : VReg) (a : VReg) (b : VReg) (pr : PReg)
  /-- R102. Element-wise fused x*y + z. -/
  | vfma (f : Fmt) (d : VReg) (a : VReg) (b : VReg) (pr : PReg)
  /-- R102. Element-wise fused x*y - z. -/
  | vfms (f : Fmt) (d : VReg) (a : VReg) (b : VReg) (pr : PReg)
  /-- R102. Element-wise fused -(x*y) + z. -/
  | vfnma (f : Fmt) (d : VReg) (a : VReg) (b : VReg) (pr : PReg)
  /-- R103. Writes a lane predicate of element equality. -/
  | vcmpEq (f : Fmt) (d : PReg) (a : VReg) (b : VReg) (pr : PReg)
  /-- R103. Writes a lane predicate of less-than. -/
  | vcmpLt (f : Fmt) (d : PReg) (a : VReg) (b : VReg) (pr : PReg)
  /-- R103. Writes a lane predicate of less-or-equal. -/
  | vcmpLe (f : Fmt) (d : PReg) (a : VReg) (b : VReg) (pr : PReg)
  /-- R103. Writes a lane predicate of unordered. -/
  | vcmpUn (f : Fmt) (d : PReg) (a : VReg) (b : VReg) (pr : PReg)
  /-- R104. Selects each element from V[a] or V[b] by predicate. -/
  | vsel (f : Fmt) (d : VReg) (a : VReg) (b : VReg) (pr : PReg)
  /-- R104. Permutes elements of V[a] by indices in V[b]. -/
  | vperm (f : Fmt) (d : VReg) (a : VReg) (b : VReg) (pr : PReg)
  /-- R104. Broadcasts S[a] into active elements. -/
  | vbcst (f : Fmt) (d : VReg) (a : SReg) (pr : PReg)
  /-- R104. Extracts one element to S[d]. -/
  | vext (f : Fmt) (d : SReg) (a : VReg) (b : SReg)
  /-- R105. Tree sum of active elements into S[d]. -/
  | vredSum (f : Fmt) (d : SReg) (a : VReg) (pr : PReg)
  /-- R105. Tree maximum of active elements. -/
  | vredMax (f : Fmt) (d : SReg) (a : VReg) (pr : PReg)
  /-- R105. Tree minimum of active elements. -/
  | vredMin (f : Fmt) (d : SReg) (a : VReg) (pr : PReg)
  /-- R105. Tree sum of squares of active elements. -/
  | vredSsq (f : Fmt) (d : SReg) (a : VReg) (pr : PReg)
  /-- R106. Element-wise correctly rounded 2^x. -/
  | vexp2 (f : Fmt) (d : VReg) (a : VReg) (pr : PReg)
  /-- R106. Element-wise correctly rounded log2 x. -/
  | vlog2 (f : Fmt) (d : VReg) (a : VReg) (pr : PReg)
  /-- R106. Element-wise correctly rounded reciprocal. -/
  | vrcp (f : Fmt) (d : VReg) (a : VReg) (pr : PReg)
  /-- R106. Element-wise correctly rounded reciprocal square root. -/
  | vrsq (f : Fmt) (d : VReg) (a : VReg) (pr : PReg)
  /-- R107. Converts elements from format q to the format in the immediate. -/
  | vcvt (f : Fmt) (d : VReg) (a : VReg) (pr : PReg) (tgt : Fmt)
  /-- R108. Multiplies elements by 2^k. -/
  | vscale (f : Fmt) (d : VReg) (a : VReg) (pr : PReg) (imm : Word)
  /-- R108. Sets active elements to the converted immediate. -/
  | vli (f : Fmt) (d : VReg) (pr : PReg) (imm : Word)
  /-- R109. Unit-stride vector load from the scratchpad. -/
  | vldlUnit (f : Fmt) (d : VReg) (a : SReg) (pr : PReg)
  /-- R109. Strided vector load from the scratchpad. -/
  | vldlStr (f : Fmt) (d : VReg) (a : SReg) (b : SReg) (pr : PReg)
  /-- R109. Gather vector load from the scratchpad. -/
  | vldlGat (f : Fmt) (d : VReg) (a : SReg) (b : VReg) (pr : PReg)
  /-- R109. Broadcast vector load from the scratchpad. -/
  | vldlBc (f : Fmt) (d : VReg) (a : SReg) (pr : PReg)
  /-- R109. Unit-stride vector store to the scratchpad. -/
  | vstlUnit (f : Fmt) (d : VReg) (a : SReg) (pr : PReg)
  /-- R109. Strided vector store to the scratchpad. -/
  | vstlStr (f : Fmt) (d : VReg) (a : SReg) (b : SReg) (pr : PReg)
  /-- R109. Scatter vector store to the scratchpad. -/
  | vstlSca (f : Fmt) (d : VReg) (a : SReg) (b : VReg) (pr : PReg)
  /-- R112. P[d] := P[a] AND P[b]. -/
  | pand (d : PReg) (a : PReg) (b : PReg)
  /-- R112. P[d] := P[a] OR P[b]. -/
  | por (d : PReg) (a : PReg) (b : PReg)
  /-- R112. P[d] := P[a] XOR P[b]. -/
  | pxor (d : PReg) (a : PReg) (b : PReg)
  /-- R112. P[d] := NOT P[a]. -/
  | pnot (d : PReg) (a : PReg)
  /-- R112. Counts the one bits of P[a]. -/
  | pcnt (d : SReg) (a : PReg)
  /-- R112. Finds the lowest one bit of P[a]. -/
  | pffs (d : SReg) (a : PReg)
  /-- R112. P[d] := S[a]. -/
  | pset (d : PReg) (a : SReg)
  /-- R115. Loads 32 rows of a tile from the scratchpad. -/
  | tld (f : Fmt) (d : TReg) (a : SReg) (b : SReg)
  /-- R115. Loads a tile transposed from the scratchpad. -/
  | tldT (f : Fmt) (d : TReg) (a : SReg) (b : SReg)
  /-- R115. Stores 32 tile rows to the scratchpad. -/
  | tst (f : Fmt) (d : TReg) (a : SReg) (b : SReg)
  /-- R116. Starts a matrix multiply-accumulate of two tiles into an accumulator, sampling formats and scales. -/
  | tmma (d : AReg) (a : TReg) (b : TReg)
  /-- R116. Matrix multiply-accumulate with the B tile transposed. -/
  | tmmaBt (d : AReg) (a : TReg) (b : TReg)
  /-- R116. Matrix multiply-accumulate streaming B from the scratchpad. -/
  | tmmaSp (d : AReg) (a : TReg) (b : SReg)
  /-- R120. Sets every accumulator element to +0. -/
  | azero (d : AReg)
  /-- R120. Loads an accumulator from 4 KiB of scratchpad. -/
  | ald (d : AReg) (a : SReg)
  /-- R120. Stores an accumulator to 4 KiB of scratchpad. -/
  | ast (d : AReg) (a : SReg)
  /-- R120. Adds one accumulator into another with rounding. -/
  | aadd (d : AReg) (a : AReg)
  /-- R121. Converts an accumulator into a tile, optionally saturating. -/
  | acvt (f : Fmt) (d : TReg) (a : AReg) (mode : BitVec 2)
  /-- R122. Converts consecutive accumulator rows into a vector register. -/
  | acvtV (f : Fmt) (d : VReg) (a : AReg) (b : SReg)
  /-- R123. Writes four tile rows from a vector register. -/
  | tmov (f : Fmt) (d : TReg) (a : VReg) (b : SReg)
  /-- R123. Transposes a 16-bit tile. -/
  | ttrn (f : Fmt) (d : TReg) (a : TReg)
  /-- R124. Starts a repetition capturing the next n groups with an iteration count. -/
  | rpt (n : BitVec 4) (imm : Word)
  /-- R126. Sets the stagger of one field of the next captured group. -/
  | rpts (field : BitVec 3) (imm : Word)
  /-- R127. Retires once the sequencer has drained. -/
  | rptw
  /-- R127. Cancels the repetition after the drain hold, clearing ACTIVE. -/
  | rptx
  /-- R257. Loads a sign-extended value at a global address after the checks of R255. -/
  | ldg (d : SReg) (a : SReg) (imm : Word) (sz : BitVec 2) (o : Ord)
  /-- R257. Loads a zero-extended value at a global address. -/
  | ldgn (d : SReg) (a : SReg) (imm : Word) (sz : BitVec 2) (o : Ord)
  /-- R257. Stores to a global address, posted where R244 says. -/
  | stg (d : SReg) (a : SReg) (imm : Word) (sz : BitVec 2) (o : Ord)
  /-- R258. Atomic add at the home, returning the old value. -/
  | amoadd (asz : AmoSize) (d : SReg) (a : SReg) (b : SReg) (o : Ord)
  /-- R258. Atomic AND. -/
  | amoand (asz : AmoSize) (d : SReg) (a : SReg) (b : SReg) (o : Ord)
  /-- R258. Atomic OR. -/
  | amoor (asz : AmoSize) (d : SReg) (a : SReg) (b : SReg) (o : Ord)
  /-- R258. Atomic XOR. -/
  | amoxor (asz : AmoSize) (d : SReg) (a : SReg) (b : SReg) (o : Ord)
  /-- R258. Atomic signed minimum. -/
  | amomin (asz : AmoSize) (d : SReg) (a : SReg) (b : SReg) (o : Ord)
  /-- R258. Atomic signed maximum. -/
  | amomax (asz : AmoSize) (d : SReg) (a : SReg) (b : SReg) (o : Ord)
  /-- R258. Atomic unsigned minimum. -/
  | amominn (asz : AmoSize) (d : SReg) (a : SReg) (b : SReg) (o : Ord)
  /-- R258. Atomic unsigned maximum. -/
  | amomaxn (asz : AmoSize) (d : SReg) (a : SReg) (b : SReg) (o : Ord)
  /-- R258. Atomic swap. -/
  | amoswp (asz : AmoSize) (d : SReg) (a : SReg) (b : SReg) (o : Ord)
  /-- R258. Atomic compare-and-swap against the old S[d]. -/
  | amocas (asz : AmoSize) (d : SReg) (a : SReg) (b : SReg) (o : Ord)
  /-- R241. Orders later loads or stores after earlier ones by kind and scope, and with RS waits for URS to be 0. -/
  | fence (rs : Bool) (scope : Scope) (kinds : BitVec 4)
  /-- R261. Posted write-back of a home line's dirty sectors. -/
  | cclean (a : SReg) (o : Ord)
  /-- R261. Posted write-back and invalidation of a home line. -/
  | cinv (a : SReg) (o : Ord)
  /-- R261. Posted discard of a home line's dirty sectors. -/
  | cdisc (a : SReg) (o : Ord)
  /-- R262. Prefetches a line without trapping. -/
  | pref (a : SReg) (o : Ord)
  /-- R263. Pins a home line subject to quota and set limits. -/
  | cpin (d : SReg) (a : SReg)
  /-- R263. Releases this context's pin on a home line. -/
  | cunpin (d : SReg) (a : SReg)
  /-- R265. Computes owner rank and local address of a tensor element from a layout record. -/
  | gaddr (d : SReg) (a : SReg) (b : VReg)
  /-- R267. Builds a region-1 global address from a core word and offset. -/
  | mkga (d : SReg) (a : SReg) (b : SReg)
  /-- R268. Loads through a bounded parameter window. -/
  | ldpw (d : SReg) (n : BitVec 2) (b : SReg) (sz : BitVec 2)
  /-- R170. Creates a typed object cell from a scratchpad image. -/
  | oinit (d : SReg) (a : SReg) (b : SReg)
  /-- R173. Destroys an object cell and wakes its waiters DESTROYED. -/
  | odestroy (d : SReg) (a : SReg)
  /-- R172. Returns a cell's type tag and a snapshot of its bytes. -/
  | oquery (d : SReg) (a : SReg) (b : VReg)
  /-- R183. Cleans up a DEAD context's parked request and held locks. -/
  | okill (d : SReg) (a : SReg)
  /-- R174. Adds to a counter, waking satisfied waiters. -/
  | cntadd (d : SReg) (a : SReg) (b : SReg)
  /-- R169. Posted counter add holding a journal entry. -/
  | cntaddP (a : SReg) (b : SReg)
  /-- R174. Waits until a counter reaches a threshold. -/
  | cntwait (d : SReg) (a : SReg) (b : SReg)
  /-- R174. Tests a counter against a threshold without parking. -/
  | cntwaitNw (d : SReg) (a : SReg) (b : SReg)
  /-- R175. Arrives at a phased barrier without waiting. -/
  | bararr (d : SReg) (a : SReg)
  /-- R176. Waits until a barrier phase has passed. -/
  | barwait (d : SReg) (a : SReg) (b : SReg)
  /-- R175. Arrives at a barrier and waits for the phase to complete. -/
  | baraw (d : SReg) (a : SReg)
  /-- R177. Changes a barrier's participant count. -/
  | baradj (d : SReg) (a : SReg) (b : SReg)
  /-- R179. Acquires a ticket lock, parking if held. -/
  | tlkacq (d : SReg) (a : SReg)
  /-- R179. Tries to acquire a ticket lock. -/
  | tlkacqNw (d : SReg) (a : SReg)
  /-- R179. Releases a ticket lock to the head waiter. -/
  | tlkrel (d : SReg) (a : SReg)
  /-- R181. Pushes a slot to a bounded queue, parking while full. -/
  | bqpush (d : SReg) (a : SReg) (b : VReg)
  /-- R181. Tries to push to a bounded queue. -/
  | bqpushNw (d : SReg) (a : SReg) (b : VReg)
  /-- R181. Pops a slot from a bounded queue, parking while empty. -/
  | bqpop (d : SReg) (a : SReg) (b : VReg)
  /-- R181. Tries to pop from a bounded queue. -/
  | bqpopNw (d : SReg) (a : SReg) (b : VReg)
  /-- R182. Releases the associated lock and waits on the condition in one step. -/
  | cvwait (d : SReg) (a : SReg)
  /-- R182. Moves the head condition waiter to reacquire the lock. -/
  | cvsig (d : SReg) (a : SReg)
  /-- R182. Moves every condition waiter to reacquire the lock. -/
  | cvbc (d : SReg) (a : SReg)
  /-- R187. Publishes the reserved buffer as the next version. -/
  | vcpub (d : SReg) (a : SReg)
  /-- R187. Finalises a version cell. -/
  | vcfin (d : SReg) (a : SReg)
  /-- R187. Reserves the next ring buffer, parking until it is acknowledged. -/
  | vcrsv (d : SReg) (a : SReg)
  /-- R187. Stops further publication on a version cell. -/
  | vcstop (d : SReg) (a : SReg)
  /-- R188. Subscribes to a version cell and sets the watch. -/
  | vcsub (d : SReg) (a : SReg) (b : SReg)
  /-- R188. Acknowledges a range of versions, possibly regranting a reservation or settling. -/
  | vcack (d : SReg) (a : SReg) (b : SReg)
  /-- R192. Copies VCNOT to S[d] without sending a request. -/
  | vcchk (d : SReg)
  /-- R188. Unsubscribes, discharging debts after the named version. -/
  | vcunsub (d : SReg) (a : SReg) (b : SReg)
  /-- R275. Checks and pushes a block of layout-record copy commands to the copy engine. -/
  | cpy (d : SReg) (a : SReg) (b : SReg)
  /-- R275. Checks and pushes a block of record-to-bank transpose commands. -/
  | cpyt (d : SReg) (a : SReg) (b : SReg)
  /-- R275. Checks and pushes a block of linear copy commands. -/
  | cpyl (d : SReg) (a : SReg) (b : SReg)
  /-- R284. Waits until any tag of a mask completes. -/
  | twany (d : SReg) (a : SReg)
  /-- R284. Waits until no tag of a mask is pending. -/
  | twall (d : SReg) (a : SReg)
  /-- R284. Returns the lowest ready tag of a mask. -/
  | tffr (d : SReg) (a : SReg)
  /-- R284. Clears tag bits in TAGS and TAGERR. -/
  | tclr (a : SReg)
  /-- R291. Checks and queues a moss-mode microprogram call at a slice. -/
  | bscall (d : SReg) (a : SReg) (imm : Word)
  /-- R286. Changes the modes of a set of slice banks under quota and floor checks. -/
  | bspart (d : SReg) (a : SReg) (b : SReg)
  /-- R300. Returns a slice's bank modes and sequencer status. -/
  | bsstat (d : SReg) (a : SReg)
  /-- R300. Aborts the issuing context's calls at a slice. -/
  | bsabort (d : SReg) (a : SReg)
  /-- R347. Checks and pushes fabric transfer descriptors started in array order. -/
  | xfer (d : SReg) (a : SReg) (b : SReg)
  /-- R347. Pushes transfer descriptors run one after another. -/
  | xferCh (d : SReg) (a : SReg) (b : SReg)
  /-- R350. Arrives at a combining barrier with a contribution and waits. -/
  | coll (d : SReg) (a : SReg) (b : SReg)
  /-- R349. Starts a dimension-ordered multicast of one transfer to a device group. -/
  | mcst (d : SReg) (a : SReg) (b : SReg)
  /-- R346. Registers an incoming-access window in every gateway. -/
  | regwin (d : SReg) (a : SReg)
  /-- R346. Starts revocation of a registration window. -/
  | revwin (d : SReg) (a : SReg) (b : SReg)
  /-- R313. Reads a control register. -/
  | crr (d : SReg) (idx : BitVec 12)
  /-- R313. Writes a control register under privilege and value checks. -/
  | crw (a : SReg) (idx : BitVec 12)
  /-- R313. Exchanges a control register with a scalar register in one step. -/
  | crx (d : SReg) (a : SReg) (idx : BitVec 12)
  /-- R315. Returns from a handler to U, resuming the sequencer or the PC. -/
  | eret
  /-- R315. Retires and raises SERVICE with TRAPVAL = n. -/
  | trap (n : BitVec 8)
  /-- R316. Installs handler regions after checking every page is pinned. -/
  | hndset (d : SReg) (a : SReg) (b : SReg)
  /-- R324. Holds and switches out, or kills, a context by handle. -/
  | ctxsave (d : SReg) (a : SReg) (b : SReg)
  /-- R324. Releases a held context or frees a cleaned DEAD handle. -/
  | ctxload (d : SReg) (a : SReg) (b : SReg)
  /-- R234. Removes cached translations and instruction-cache lines device-wide. -/
  | tlbinv (d : SReg) (a : SReg) (b : SReg)
  /-- R313. A write to a control, device or partition register that has no behaviour row of its own. -/
  | registerWrite (off : Nat) (v : Word)
  /-- R312. A pending asynchronous trap is taken at the next group boundary while not in a handler. -/
  | asyncTrap (f : Nat)
  /-- R137. The quad fetch port serves one 32-byte block, broadcast to every requesting core. -/
  | fetchBlock (q : Nat)
  /-- R137. A fetch request that has waited 60 cycles becomes aged. -/
  | fetchAge (q : Nat) (c : Nat)
  /-- R131. After 2,048 issuing cycles with another same-level frame waiting, the core changes issuing frame. -/
  | issueRotation (c : Nat)
  /-- R20. The repeat sequencer issues the next captured group with staggered fields. -/
  | rptIterationIssue (f : Nat)
  /-- R119. A TMMA finishes, raising its flags and releasing its shadow. -/
  | tmmaComplete (c : Nat)
  /-- R318. A residue check detects a soft error and the TMMA is restored and replayed, or MCHECK after three. -/
  | matrixResidueError (c : Nat)
  /-- R133. The matrix bank write-out and read or zeroing ends and the requester becomes owner and READY. -/
  | matrixBankExchange (c : Nat)
  /-- R134. The owner's 1,024 issue cycles of bank protection run out. -/
  | bankHoldExpiry (c : Nat)
  /-- R147. QUANT reaches zero and the context is switched out or QUANT reloaded. -/
  | quantExpiry (f : Nat)
  /-- R139. The distributor pops a job card, checks it and places it in the active set or parks its wait. -/
  | jobCardPop (p : Nat) (l : Nat)
  /-- R143. A parked card wait is woken and the card becomes ready to enter its active set. -/
  | cardWaitWake (n : Nat)
  /-- R141. The distributor sizes and deals the next chunk of a job to a free frame. -/
  | dealChunk (p : Nat) (l : Nat)
  /-- R145. All G one-record chunks of a gang are dealt at once in rank order. -/
  | gangDeal (p : Nat) (l : Nat)
  /-- R149. Chunk-entry state, windows and layout records are written and the frame becomes READY. -/
  | chunkLoadComplete (f : Nat)
  /-- R144. The distributor counts a chunk ended by DONE or DONE.AB. -/
  | chunkEnd (n : Nat)
  /-- R167. A reply or wake reaches the frame, writes status and value, invalidates L1 and makes it READY. -/
  | objectReply (n : Nat)
  /-- R322. A wake for a switched-out context is written into its record and it becomes RUNNABLE. -/
  | wakeSavedContext (n : Nat)
  /-- R162. A wake whose entry is in the spill ring leaves after its ring read. -/
  | spillRingWake (n : Nat)
  /-- R159. A copy engine, sequencer, fabric or distributor counter add, possibly with error marks, is executed. -/
  | agentCntadd (n : Nat)
  /-- R175. A finished child barrier arrives at its parent as an internal waiter. -/
  | parentArrival (n : Nat)
  /-- R175. A parent's completion wakes a child barrier, which runs Complete(). -/
  | parentCompleteWake (n : Nat)
  /-- R182. The condition's release of the lock on a CVWAIT waiter's behalf. -/
  | cvLockRelease (n : Nat)
  /-- R182. A signalled condition waiter's TLKACQ arrives at the lock. -/
  | cvMovedAcquire (n : Nat)
  /-- R180. An OKILL abandonment releases or flags a lock held by a dead context. -/
  | lockAbandon (n : Nat)
  /-- R183. An OKILL removal takes a dead context's waiter out of a cell's list. -/
  | waiterRemoval (n : Nat)
  /-- R183. A message to a DEAD context is discarded or a lock grant returned as abandonment. -/
  | deadContextMessage (n : Nat)
  /-- R189. A settled version cell's CNTADD reaches its settle counter. -/
  | settleAdd (n : Nat)
  /-- R193. A version cell's refire card copy is pushed to its job queue. -/
  | refirePush (n : Nat)
  /-- R193. A failed refire discharges its acknowledgement and pushes a kind-9 machine check. -/
  | refireLost (n : Nat)
  /-- R195. The distributor acknowledges an ended refinement job's version for the refire path. -/
  | distributorVcack (n : Nat)
  /-- R191. A publish, stop or final notice updates watching contexts' VCNOT. -/
  | vcNotice (n : Nat)
  /-- R236. A store, line operation or AMO is performed at its home and acknowledged. -/
  | homeStorePerform (n : Nat)
  /-- R236. A global load's value reaches the frame. -/
  | loadReply (n : Nat)
  /-- R244. A posted access's acknowledgement frees its journal entry. -/
  | storeAck (n : Nat)
  /-- R317. A posted access's refusal sets REFD and makes JOURNAL pending. -/
  | storeRefusal (n : Nat)
  /-- R232. A translation walk completes and answers its merged requesters. -/
  | pageWalk (c : Nat) (asid : Nat) (va : Nat)
  /-- R235. A store to COUNTER starts a map command setting sector tags and page kind. -/
  | mapcmdMap
  /-- R235. A store to COUNTER starts an unmap command clearing sector tags. -/
  | mapcmdUnmap
  /-- R235. A mapping command ends, writes STATUS and adds to its counter. -/
  | mapcmdComplete
  /-- R222. A mesh flit failing CRC is discarded and replayed from the buffer. -/
  | meshCrcReplay (l : Nat)
  /-- R222. An idle mesh link sends its slot count every 256 network cycles. -/
  | meshBeacon (l : Nat)
  /-- R277. A FIFO block starts once earlier accesses of its frame are complete. -/
  | copyBlockStart (c : Nat) (k : Nat)
  /-- R277. A command's writes are all performed and the next command starts. -/
  | copyCommandComplete (c : Nat) (k : Nat)
  /-- R280. A block completes, setting its tag and sending its counter add. -/
  | copyBlockComplete (c : Nat) (k : Nat)
  /-- R282. A command faults, the block completes with error and FAULTA/FAULTB record it. -/
  | copyFault (c : Nat) (k : Nat)
  /-- R279. A held CPYT row write is performed on the slice command bus. -/
  | cpytRowWrite (sl : Nat)
  /-- R294. The slice command bus arbitrates one command per array cycle among requests, row writes and microwords. -/
  | busCycle (sl : Nat)
  /-- R291. A queued call reaches the head and starts, or completes with error for an empty entry. -/
  | mossCallStart (sl : Nat)
  /-- R299. A call writes its last row and sends its counter add. -/
  | mossCallComplete (sl : Nat)
  /-- R297. A call reaches its budget: sequencer reset, compute banks cleared, queue discarded. -/
  | budgetExpiry (sl : Nat)
  /-- R319. A frame is stopped, drained and its context record written, leaving it EMPTY. -/
  | switchOut (f : Nat)
  /-- R322. A runnable saved context is restored into a free frame of its core. -/
  | contextRestore (h : Nat) (f : Nat)
  /-- R323. A gang is stopped, drain counters are waited on and all contexts are saved. -/
  | gangSwitch (j : Nat)
  /-- R323. After 800 cycles a pre-empted gang is saved without finishing its drain. -/
  | gangDrainTimeout (j : Nat)
  /-- R326. A quad isolation reset kills its contexts and clears its state. -/
  | quadReset (c : Nat)
  /-- R327. A correctable soft error is corrected and counted. -/
  | correctableError (a : Nat)
  /-- R327. Data is poisoned and MCHECK or a report follows. -/
  | uncorrectableError (a : Nat)
  /-- R334. A die is fenced: its contexts die and its work is disposed of by job kind. -/
  | dieFence (d : Nat)
  /-- R335. The next unfenced die's distributor becomes master. -/
  | masterElection
  /-- R341. A packet reaches its flow endpoint and is delivered, held or deduplicated. -/
  | fabricPacketArrival (p : Packet)
  /-- R345. A REVOKING window's last in-flight access ends and its counter receives its add. -/
  | windowRevoked (w : Nat)
  /-- R341. An ACK frees the ingress gateway's copies of a flow's packets. -/
  | fabricAck (p : Packet)
  /-- R344. A refusal packet reaches the ingress gateway or the issuer. -/
  | fabricRefusal (p : Packet)
  /-- R340. A fabric packet fails CRC, is discarded with followers and a replay requested. -/
  | linkCrcFail (port : Nat)
  /-- R340. A sender resends from its replay buffer from LACK. -/
  | linkReplayRequest (port : Nat) (lack : Nat)
  /-- R340. No beat or beacon for 65,536 network cycles fails the port. -/
  | linkSilenceTimeout (port : Nat)
  /-- R340. An idle fabric link sends a kind-14 beacon every 256 network cycles. -/
  | linkBeacon (port : Nat)
  /-- R342. An unacknowledged packet's timeout declares its path failed and sends a purge marker. -/
  | endToEndTimeout (n : Nat)
  /-- R342. A purge marker reaches a gateway, which drops the flow's packets and forwards it. -/
  | purgeMarker (p : Packet)
  /-- R342. The Purged reply arrives and packets above it are retransmitted on another path. -/
  | purged (p : Packet)
  /-- R342. No Purged within 1 ms makes the destination unreachable for the flow. -/
  | purgeTimeout (n : Nat)
  /-- R348. A transfer's wait counter wakes it, starting it or ending it with error. -/
  | transferWaitWake (n : Nat)
  /-- R348. All packets are acknowledged and the completion counters receive their adds. -/
  | transferComplete (c : Nat) (k : Nat)
  /-- R348. A refused or unreachable packet ends a transfer with error and raises FABRIC. -/
  | transferError (c : Nat) (k : Nat)
  /-- R349. A gateway forks a multicast packet into its branches as slots allow. -/
  | multicastFork (n : Nat)
  /-- R351. A gateway combines an arriving contribution into a barrier's accumulator. -/
  | combineArrival (n : Nat)
  /-- R352. An abort reaches a barrier, which sets aborted and propagates it. -/
  | collectiveAbort (n : Nat)
  /-- R363. Writing the retrain register retrains a fabric port. -/
  | portRetrain (port : Nat)
  /-- R357. A host read of device memory is performed at its home slice. -/
  | hostBar4Read (off : Nat) (len : Nat)
  /-- R357. A host write of device memory is performed, or discarded and counted. -/
  | hostBar4Write (off : Nat) (data : List Byte)
  /-- R358. A completed request slot with OP 0 pushes to a queue without parking. -/
  | hostBqpushNw (slot : Nat)
  /-- R358. A completed request slot with OP 1 adds to a counter. -/
  | hostCntadd (slot : Nat)
  /-- R358. A completed request slot with OP 2 tests a counter. -/
  | hostCntwaitNw (slot : Nat)
  /-- R358. A completed request slot with OP 3 queries a cell. -/
  | hostOquery (slot : Nat)
  /-- R362. Writing PCTL.EN = 1 creates the partition's job queues. -/
  | partitionCreate (p : Nat)
  /-- R362. Writing PCTL.EN = 0 removes an idle partition. -/
  | partitionRemove (p : Nat)
  /-- R317. Writing 1 to a REFD bit frees a refused journal entry. -/
  | jrnstFree (f : Nat) (v : Word)
  /-- R283. Writing 1 to FAULTA.VALID clears the copy fault record. -/
  | faultaClear (f : Nat) (v : Word)
  /-- R298. Writing 1 to ARRFLT.VALID clears the array fault record. -/
  | arrfltClear (f : Nat) (v : Word)
  /-- R364. Reset runs the boot ROM, which verifies and loads firmware. -/
  | powerOnReset
  /-- R364. A function sets READY or FAILED in its capability entry. -/
  | functionReady (id : Nat) (failed : Bool)
  /-- R367. A store to FWCNT starts verification of a kind-3 control-store image. -/
  | firmwareLoad
  /-- R367. Each slice installs the extension image between calls and the load reports its status. -/
  | controlStoreInstall
  /-- R368. A nonce and counter request produces a signed attestation report. -/
  | attestReport
  /-- R369. REQ = 1 or the freeze pin stops every unit. -/
  | freeze
  /-- R369. REQ = 0 continues every unit from where it stopped. -/
  | resume
  /-- R370. TRCTL[0] starts recording of replay-flagged jobs. -/
  | traceRecordEnable
  /-- R371. TRCTL[2] makes recorded jobs run in the traced order. -/
  | replayEnable
  /-- R371. An untraced event stops replay with a kind-8 machine check. -/
  | replayDivergence
  /-- R372. At the temperature limit or power cap idle issue cycles are inserted. -/
  | thermalThrottle (idle : BitVec 16)
  /-- R358. A host write into a request slot accumulates bytes toward a complete request, or is discarded and counted in HOSTERR when the slot is busy, and a completed slot with an undefined OP is answered INVALID. -/
  | hostBar2Write (off : Nat) (data : List Byte)
  /-- R340. An intact fabric packet reaches a link receiver, which updates LACK and the slot counts, regains its place in the stream after a replay, and routes the packet onward or to its gateway. -/
  | linkPacketReceive (port : Nat) (p : Packet)
  /-- R326. After 4,096 cycles a quad isolation reset ends and the quad accepts chunks again. -/
  | quadResetComplete (c : Nat)
  deriving DecidableEq, Repr

end Sys2Proof
end

