-- ==== Sys2Proof/WellFormed.lean ====
section
/-! DEFINITION. Which instruction terms the encoding admits: format sets (R31, R100), operand limits (R27, R28, R42,
R165), ORD fields (R32) and immediates that the prefixes left over can carry (R28, R33). -/

namespace Sys2Proof

/-- The integer formats, codes 0-5, 11 and 12 (R55). -/
def Fmt.isInt : Fmt → Bool
  | .i8 | .n8 | .i16 | .n16 | .i32 | .n32 | .i64 | .n64 => true
  | _ => false

/-- The IEEE formats, codes 6, 7, 8 and 13 (R55). -/
def Fmt.isIeee : Fmt → Bool
  | .bf16 | .f16 | .f32 | .f64 => true
  | _ => false

/-- The tapered formats (R55, R58). -/
def Fmt.isTapered : Fmt → Bool
  | .t8 | .t6 => true
  | _ => false

/-- The format sets of R31 and R100. -/
def Fmt.okIF (f : Fmt) : Bool := f.isInt || f.isIeee
def Fmt.okIFT8 (f : Fmt) : Bool := f.isInt || f.isIeee || f == .t8
def Fmt.okF3 (f : Fmt) : Bool := f == .bf16 || f == .f16 || f == .f32
def Fmt.okNoT6 (f : Fmt) : Bool := f != .t6
def Fmt.okWide (f : Fmt) : Bool :=
  f == .i32 || f == .n32 || f == .f32 || f == .i64 || f == .n64 || f == .f64
def Fmt.okTile (f : Fmt) : Bool := f == .bf16 || f == .f16 || f == .t8 || f == .t6
def Fmt.okTileT (f : Fmt) : Bool := f == .bf16 || f == .f16 || f == .t8
def Fmt.okTile16 (f : Fmt) : Bool := f == .bf16 || f == .f16
def Fmt.okAcvtV (f : Fmt) : Bool := f == .bf16 || f == .f16 || f == .f32 || f == .t8 || f == .t6

/-- The control registers of R314. -/
def crKnown (i : Nat) : Bool :=
  i == 0x001 || i == 0x002 || (0x010 ≤ i && i ≤ 0x013) || i == 0x018 || i == 0x01C || i == 0x01D ||
  (0x020 ≤ i && i ≤ 0x02B) || i == 0x030 || i == 0x032 || i == 0x034 || i == 0x038 || i == 0x03C ||
  i == 0x040 || i == 0x041 || i == 0x044 || (0x100 ≤ i && i ≤ 0x102) || (0x104 ≤ i && i ≤ 0x109) ||
  i == 0x10C || i == 0x10D || (0x110 ≤ i && i ≤ 0x12F)

/-- The ORD fields that R32 allows an instruction. -/
def Ord.okLoad (o : Ord) : Bool := o.order == .plain || o.order == .acquire
def Ord.okStore (o : Ord) : Bool := o.order == .plain || o.order == .release
def Ord.okAmo (o : Ord) : Bool := o.hint == .normal
def Ord.okLine (o : Ord) : Bool := o.order == .plain && o.hint == .normal
def Ord.okPref (o : Ord) : Bool := o.order == .plain

/-- The mode of ACVT (R121): the column half only for a tapered target, SAT only for a 16-bit one. -/
def acvtModeOk (f : Fmt) (m : BitVec 2) : Bool := if f.isTapered then !m[1] else !m[0]

/-- How many IMM prefixes a value needs over a base field of `w` bits, trying `k`, `k + 1`, ... (R28, R49). -/
def immCount (signed : Bool) (w : Nat) (v : Word) : Nat → Nat → Option Nat
  | 0, _ => none
  | fuel + 1, k =>
    let bits := 11 * k + w
    let fits := if signed then (v.setWidth bits).signExtend 64 == v else (v.setWidth bits).setWidth 64 == v
    if fits then some k else immCount signed w v fuel (k + 1)

/-- The prefixes a group already needs: PAGE, REG when a field is widened or a predicate named, ORD (R49). -/
def prefixCount (page : Nat) (reg : Bool) (o : Ord) : Nat :=
  (if page = 0 then 0 else 1) + (if reg then 1 else 0) + (if o = {} then 0 else 1)

/-- The immediate fits in the prefixes left over, four in all (R33). -/
def immOk (signed : Bool) (w : Nat) (v : Word) (used : Nat) : Bool :=
  match immCount signed w v 5 0 with
  | some k => used + k ≤ 4
  | none => false

/-- The register number needs the high bits of REG (R30). -/
def wide5 (r : BitVec 5) : Bool := 8 ≤ r.toNat

/-- The instruction terms that stand for a group of halfwords. Events, UDF and patterns that are no instruction do
not. -/
def Instr.wf : Instr → Bool
  | .udf _ _ => false
  | .nonInstructionPattern _ _ => false
  | .nop => true
  | .yield => true
  | .done => true
  | .doneAb => true
  | .brk _ => true
  | .add _ _ _ => true
  | .sub _ _ _ => true
  | .and _ _ _ => true
  | .or _ _ _ => true
  | .xor _ _ _ => true
  | .andn _ _ _ => true
  | .sll _ _ _ => true
  | .srl _ _ _ => true
  | .sra _ _ _ => true
  | .ror _ _ _ => true
  | .slt _ _ _ => true
  | .sltn _ _ _ => true
  | .mul _ _ _ => true
  | .mulh _ _ _ => true
  | .mulhn _ _ _ => true
  | .seq _ _ _ => true
  | .div _ _ _ => true
  | .divn _ _ _ => true
  | .rem _ _ _ => true
  | .remn _ _ _ => true
  | .min _ _ _ => true
  | .max _ _ _ => true
  | .minn _ _ _ => true
  | .maxn _ _ _ => true
  | .addi d a imm => immOk true 5 imm (prefixCount 0 (wide5 d || wide5 a) {})
  | .andi d a imm => immOk true 5 imm (prefixCount 0 (wide5 d || wide5 a) {})
  | .ori d a imm => immOk true 5 imm (prefixCount 0 (wide5 d || wide5 a) {})
  | .xori d a imm => immOk true 5 imm (prefixCount 0 (wide5 d || wide5 a) {})
  | .slli d a imm => imm.toNat ≤ 63 && immOk false 5 imm (prefixCount 0 (wide5 d || wide5 a) {})
  | .srli d a imm => imm.toNat ≤ 63 && immOk false 5 imm (prefixCount 0 (wide5 d || wide5 a) {})
  | .srai d a imm => imm.toNat ≤ 63 && immOk false 5 imm (prefixCount 0 (wide5 d || wide5 a) {})
  | .slti d a imm => immOk true 5 imm (prefixCount 0 (wide5 d || wide5 a) {})
  | .li d imm => immOk true 8 imm (prefixCount 0 (wide5 d) {})
  | .lih d imm => imm.toNat ≤ 65535 && immOk false 8 imm (prefixCount 0 (wide5 d) {})
  | .clz _ _ => true
  | .ctz _ _ => true
  | .popc _ _ => true
  | .sext _ _ sz => sz != 3
  | .ldl d a imm _ => immOk true 3 imm (prefixCount 0 (wide5 d || wide5 a) {})
  | .ldln d a imm sz => sz != 3 && immOk true 3 imm (prefixCount 0 (wide5 d || wide5 a) {})
  | .stl d a imm _ => immOk true 3 imm (prefixCount 0 (wide5 d || wide5 a) {})
  | .beq a b imm => immOk true 5 imm (prefixCount 0 (wide5 a || wide5 b) {})
  | .bne a b imm => immOk true 5 imm (prefixCount 0 (wide5 a || wide5 b) {})
  | .blt a b imm => immOk true 5 imm (prefixCount 0 (wide5 a || wide5 b) {})
  | .bge a b imm => immOk true 5 imm (prefixCount 0 (wide5 a || wide5 b) {})
  | .bltn a b imm => immOk true 5 imm (prefixCount 0 (wide5 a || wide5 b) {})
  | .bgen a b imm => immOk true 5 imm (prefixCount 0 (wide5 a || wide5 b) {})
  | .j imm => immOk true 11 imm (prefixCount 0 (false) {})
  | .jal imm => immOk true 11 imm (prefixCount 0 (false) {})
  | .jr _ => true
  | .jalr _ => true
  | .ret _ => true
  | .fadd _ d a b => !(d.toNat % 8 == 0 && a.toNat % 8 == 0 && b.toNat % 8 == 0)
  | .fsub _ _ _ _ => true
  | .fmul _ _ _ _ => true
  | .fdiv _ _ _ _ => true
  | .fmin _ _ _ _ => true
  | .fmax _ _ _ _ => true
  | .fsgnj _ _ _ _ => true
  | .fsqrt _ _ _ => true
  | .fma _ _ _ _ => true
  | .fms _ _ _ _ => true
  | .fnma _ _ _ _ => true
  | .feq _ _ _ _ => true
  | .flt _ _ _ _ => true
  | .fle _ _ _ _ => true
  | .fun _ _ _ _ => true
  | .fclass _ _ _ => true
  | .fabs _ _ _ => true
  | .fneg _ _ _ => true
  | .fcvtFI f _ _ _ => f.isInt
  | .fcvtIF f _ _ _ => f.isInt
  | .fcvtFF _ _ _ => true
  | .fcvtT f _ _ _ _ => f.isTapered
  | .vadd sat f d a b _ => f.okIF && (!sat || f.isInt) && !(d.toNat % 8 == 0 && a.toNat % 8 == 0 && b.toNat % 8 == 0)
  | .vsub sat f _ _ _ _ => f.okIF && (!sat || f.isInt)
  | .vmul f _ _ _ _ => f.okIF
  | .vmulh f _ _ _ _ => f.isInt
  | .vmin f _ _ _ _ => f.okIF
  | .vmax f _ _ _ _ => f.okIF
  | .vabs f _ _ _ => f.okIF
  | .vneg f _ _ _ => f.okIF
  | .vand f _ _ _ _ => f.okIFT8
  | .vor f _ _ _ _ => f.okIFT8
  | .vxor f _ _ _ _ => f.okIFT8
  | .vandn f _ _ _ _ => f.okIFT8
  | .vshl f _ _ _ _ => f.isInt
  | .vshr f _ _ _ _ => f.isInt
  | .vsar f _ _ _ _ => f.isInt
  | .vror f _ _ _ _ => f.isInt
  | .vfma f _ _ _ _ => f.isIeee
  | .vfms f _ _ _ _ => f.isIeee
  | .vfnma f _ _ _ _ => f.isIeee
  | .vcmpEq f _ _ _ _ => f.okIF
  | .vcmpLt f _ _ _ _ => f.okIF
  | .vcmpLe f _ _ _ _ => f.okIF
  | .vcmpUn f _ _ _ _ => f.isIeee
  | .vsel f _ _ _ _ => f.okIFT8
  | .vperm f _ _ _ _ => f.okIFT8
  | .vbcst f _ _ _ => f.okIFT8
  | .vext f _ _ _ => f.okIFT8
  | .vredSum f _ _ _ => f.okIF
  | .vredMax f _ _ _ => f.okIF
  | .vredMin f _ _ _ => f.okIF
  | .vredSsq f _ _ _ => f.isIeee
  | .vexp2 f _ _ _ => f.okF3
  | .vlog2 f _ _ _ => f.okF3
  | .vrcp f _ _ _ => f.okF3
  | .vrsq f _ _ _ => f.okF3
  | .vcvt _ _ _ _ _ => true
  | .vscale f d a pr imm => f.isIeee && immOk true 5 imm (prefixCount 2 (wide5 d || wide5 a || pr != 0) {})
  | .vli f d pr imm => f.okIFT8 && immOk true 5 imm (prefixCount 2 (wide5 d || pr != 0) {})
  | .vldlUnit _ _ _ _ => true
  | .vldlStr f _ _ _ _ => f.okNoT6
  | .vldlGat f _ _ _ _ => f.okWide
  | .vldlBc _ _ _ _ => true
  | .vstlUnit _ _ _ _ => true
  | .vstlStr f _ _ _ _ => f.okNoT6
  | .vstlSca f _ _ _ _ => f.okWide
  | .pand _ _ _ => true
  | .por _ _ _ => true
  | .pxor _ _ _ => true
  | .pnot _ _ => true
  | .pcnt _ _ => true
  | .pffs _ _ => true
  | .pset _ _ => true
  | .tld f d a b => f.okTile && !(d == 0 && a.toNat % 8 == 0 && b.toNat % 8 == 0)
  | .tldT f _ _ _ => f.okTileT
  | .tst f _ _ _ => f.okTile
  | .tmma _ _ _ => true
  | .tmmaBt _ _ _ => true
  | .tmmaSp _ _ _ => true
  | .azero _ => true
  | .ald _ _ => true
  | .ast _ _ => true
  | .aadd _ _ => true
  | .acvt f _ _ mode => f.okTile && acvtModeOk f mode
  | .acvtV f _ _ _ => f.okAcvtV
  | .tmov f _ _ _ => f.okTile
  | .ttrn f _ _ => f.okTile16
  | .rpt n imm => imm.toNat ≤ 16777215 && immOk false 8 imm (prefixCount 3 (8 ≤ n.toNat) {})
  | .rpts field imm => field.toNat ≤ 5 && immOk true 5 imm (prefixCount 3 (false) {})
  | .rptw => true
  | .rptx => true
  | .ldg d a imm sz o => o.okLoad && immOk true 3 imm (prefixCount 4 (wide5 d || wide5 a) o) && !(d.toNat % 8 == 0 && a.toNat % 8 == 0 && imm.toNat % 8 == 0 && sz == 0)
  | .ldgn d a imm sz o => sz != 3 && o.okLoad && immOk true 3 imm (prefixCount 4 (wide5 d || wide5 a) o)
  | .stg d a imm _ o => o.okStore && immOk true 3 imm (prefixCount 4 (wide5 d || wide5 a) o)
  | .amoadd _ _ _ _ o => o.okAmo
  | .amoand _ _ _ _ o => o.okAmo
  | .amoor _ _ _ _ o => o.okAmo
  | .amoxor _ _ _ _ o => o.okAmo
  | .amomin _ _ _ _ o => o.okAmo
  | .amomax _ _ _ _ o => o.okAmo
  | .amominn _ _ _ _ o => o.okAmo
  | .amomaxn _ _ _ _ o => o.okAmo
  | .amoswp _ _ _ _ o => o.okAmo
  | .amocas _ _ _ _ o => o.okAmo
  | .fence rs _ kinds => rs || kinds != 0
  | .cclean _ o => o.okLine
  | .cinv _ o => o.okLine
  | .cdisc _ o => o.okLine
  | .pref _ o => o.okPref
  | .cpin _ _ => true
  | .cunpin _ _ => true
  | .gaddr d _ _ => d != 31
  | .mkga _ _ _ => true
  | .ldpw _ _ _ _ => true
  | .oinit d a b => !(d.toNat % 8 == 0 && a.toNat % 8 == 0 && b.toNat % 8 == 0)
  | .odestroy _ _ => true
  | .oquery _ _ _ => true
  | .okill d _ => d != 31
  | .cntadd d _ _ => d != 31
  | .cntaddP _ _ => true
  | .cntwait d _ _ => d != 31
  | .cntwaitNw d _ _ => d != 31
  | .bararr d _ => d != 31
  | .barwait d _ _ => d != 31
  | .baraw d _ => d != 31
  | .baradj d _ _ => d != 31
  | .tlkacq d _ => d != 31
  | .tlkacqNw d _ => d != 31
  | .tlkrel _ _ => true
  | .bqpush d _ _ => d != 31
  | .bqpushNw d _ _ => d != 31
  | .bqpop d _ _ => d != 31
  | .bqpopNw d _ _ => d != 31
  | .cvwait _ _ => true
  | .cvsig d _ => d != 31
  | .cvbc d _ => d != 31
  | .vcpub d a => d != 31 && !(d.toNat % 8 == 0 && a.toNat % 8 == 0)
  | .vcfin d _ => d != 31
  | .vcrsv d _ => d != 31
  | .vcstop d _ => d != 31
  | .vcsub d _ _ => d != 31
  | .vcack d _ _ => d != 31
  | .vcchk _ => true
  | .vcunsub d _ _ => d != 31
  | .cpy d a b => !(d.toNat % 8 == 0 && a.toNat % 8 == 0 && b.toNat % 8 == 0)
  | .cpyt _ _ _ => true
  | .cpyl _ _ _ => true
  | .twany _ _ => true
  | .twall _ _ => true
  | .tffr _ _ => true
  | .tclr _ => true
  | .bscall d a imm => d != 0 && imm.toNat ≤ 63 && immOk false 5 imm (prefixCount 8 (wide5 d || wide5 a) {}) && !(d.toNat % 8 == 0 && a.toNat % 8 == 0 && imm.toNat % 32 == 0)
  | .bspart _ _ _ => true
  | .bsstat d _ => d != 31
  | .bsabort _ _ => true
  | .xfer d a b => !(d.toNat % 8 == 0 && a.toNat % 8 == 0 && b.toNat % 8 == 0)
  | .xferCh _ _ _ => true
  | .coll d _ _ => d != 31
  | .mcst _ _ _ => true
  | .regwin d _ => d != 31
  | .revwin _ _ _ => true
  | .crr d idx => crKnown idx.toNat && !(d.toNat % 8 == 0 && idx.toNat % 32 == 0)
  | .crw _ idx => crKnown idx.toNat
  | .crx _ _ idx => crKnown idx.toNat
  | .eret => true
  | .trap _ => true
  | .hndset _ _ _ => true
  | .ctxsave _ _ _ => true
  | .ctxload _ _ _ => true
  | .tlbinv _ _ _ => true
  | .registerWrite _ _ => false
  | .asyncTrap _ => false
  | .fetchBlock _ => false
  | .fetchAge _ _ => false
  | .issueRotation _ => false
  | .rptIterationIssue _ => false
  | .tmmaComplete _ => false
  | .matrixResidueError _ => false
  | .matrixBankExchange _ => false
  | .bankHoldExpiry _ => false
  | .quantExpiry _ => false
  | .jobCardPop _ _ => false
  | .cardWaitWake _ => false
  | .dealChunk _ _ => false
  | .gangDeal _ _ => false
  | .chunkLoadComplete _ => false
  | .chunkEnd _ => false
  | .objectReply _ => false
  | .wakeSavedContext _ => false
  | .spillRingWake _ => false
  | .agentCntadd _ => false
  | .parentArrival _ => false
  | .parentCompleteWake _ => false
  | .cvLockRelease _ => false
  | .cvMovedAcquire _ => false
  | .lockAbandon _ => false
  | .waiterRemoval _ => false
  | .deadContextMessage _ => false
  | .settleAdd _ => false
  | .refirePush _ => false
  | .refireLost _ => false
  | .distributorVcack _ => false
  | .vcNotice _ => false
  | .homeStorePerform _ => false
  | .loadReply _ => false
  | .storeAck _ => false
  | .storeRefusal _ => false
  | .pageWalk _ _ _ => false
  | .mapcmdMap => false
  | .mapcmdUnmap => false
  | .mapcmdComplete => false
  | .meshCrcReplay _ => false
  | .meshBeacon _ => false
  | .copyBlockStart _ _ => false
  | .copyCommandComplete _ _ => false
  | .copyBlockComplete _ _ => false
  | .copyFault _ _ => false
  | .cpytRowWrite _ => false
  | .busCycle _ => false
  | .mossCallStart _ => false
  | .mossCallComplete _ => false
  | .budgetExpiry _ => false
  | .switchOut _ => false
  | .contextRestore _ _ => false
  | .gangSwitch _ => false
  | .gangDrainTimeout _ => false
  | .quadReset _ => false
  | .correctableError _ => false
  | .uncorrectableError _ => false
  | .dieFence _ => false
  | .masterElection => false
  | .fabricPacketArrival _ => false
  | .windowRevoked _ => false
  | .fabricAck _ => false
  | .fabricRefusal _ => false
  | .linkCrcFail _ => false
  | .linkReplayRequest _ _ => false
  | .linkSilenceTimeout _ => false
  | .linkBeacon _ => false
  | .endToEndTimeout _ => false
  | .purgeMarker _ => false
  | .purged _ => false
  | .purgeTimeout _ => false
  | .transferWaitWake _ => false
  | .transferComplete _ _ => false
  | .transferError _ _ => false
  | .multicastFork _ => false
  | .combineArrival _ => false
  | .collectiveAbort _ => false
  | .portRetrain _ => false
  | .hostBar4Read _ _ => false
  | .hostBar4Write _ _ => false
  | .hostBqpushNw _ => false
  | .hostCntadd _ => false
  | .hostCntwaitNw _ => false
  | .hostOquery _ => false
  | .partitionCreate _ => false
  | .partitionRemove _ => false
  | .jrnstFree _ _ => false
  | .faultaClear _ _ => false
  | .arrfltClear _ _ => false
  | .powerOnReset => false
  | .functionReady _ _ => false
  | .firmwareLoad => false
  | .controlStoreInstall => false
  | .attestReport => false
  | .freeze => false
  | .resume => false
  | .traceRecordEnable => false
  | .replayEnable => false
  | .replayDivergence => false
  | .thermalThrottle _ => false
  | .hostBar2Write _ _ => false
  | .linkPacketReceive _ _ => false
  | .quadResetComplete _ => false

end Sys2Proof
end

