-- ==== Sys2Proof/Decode.lean ====
section
/-! DEFINITION. Decoding of groups of halfwords (R25 to R44) and the encoder written from the same tables. A group
that is no instruction decodes to `nonInstructionPattern`, or to `udf` when its base word is 0x0000, each with the
offending halfword and its position as R36 names them. -/

namespace Sys2Proof

/-- The FMT code of R55. -/
def Fmt.code : Fmt → Nat
  | .i8 => 0 | .n8 => 1 | .i16 => 2 | .n16 => 3 | .i32 => 4 | .n32 => 5 | .bf16 => 6 | .f16 => 7 | .f32 => 8
  | .t8 => 9 | .t6 => 10 | .i64 => 11 | .n64 => 12 | .f64 => 13

/-- The format of a code; 14 and 15 name none (R55). -/
def fmtOf? : Nat → Option Fmt
  | 0 => some .i8 | 1 => some .n8 | 2 => some .i16 | 3 => some .n16 | 4 => some .i32 | 5 => some .n32
  | 6 => some .bf16 | 7 => some .f16 | 8 => some .f32 | 9 => some .t8 | 10 => some .t6 | 11 => some .i64
  | 12 => some .n64 | 13 => some .f64 | _ => none

/-- The format of a code already checked. -/
def fmtAt (n : Nat) : Fmt := (fmtOf? n).getD .i8

def Prec.code : Prec → Nat
  | .f32 => 0 | .f64 => 1

def precOf (q : Nat) : Prec := if q % 2 = 1 then .f64 else .f32

def Scope.code : Scope → Nat
  | .core => 0 | .quad => 1 | .die => 2 | .dev => 3 | .pod => 4

def scopeOf? : Nat → Option Scope
  | 0 => some .core | 1 => some .quad | 2 => some .die | 3 => some .dev | 4 => some .pod | _ => none

def Order.code : Order → Nat
  | .plain => 0 | .acquire => 1 | .release => 2 | .both => 3

def orderAt : Nat → Order
  | 0 => .plain | 1 => .acquire | 2 => .release | _ => .both

def Hint.code : Hint → Nat
  | .normal => 0 | .stream => 1 | .keep => 2 | .bypass => 3

def hintOf? : Nat → Option Hint
  | 0 => some .normal | 1 => some .stream | 2 => some .keep | 3 => some .bypass | _ => none

/-- The formats of a base word (R26), but for Z, which has no fields. -/
inductive BaseFmt where
  | r | i | m | b | u | j
  deriving DecidableEq, Repr

/-- What a register field of a row may hold (R27, R41, R42, R77, R100, R121, R165). -/
inductive FieldKind where
  | zero | any | not31 | not0 | low8 | low4 | size3 | dir | mode | window | count | stagger
  deriving DecidableEq, Repr

/-- What immediate a row takes: width of its base field, and for an unsigned one its limit (R28). -/
inductive ImmKind where
  | none | signed (w : Nat) | unsigned (w limit : Nat)
  deriving DecidableEq, Repr

/-- The fields of a group, extended by its prefixes. -/
structure Flds where
  q : Nat
  d : Nat
  a : Nat
  b : Nat
  pred : Nat
  sz : Nat
  imm : Word
  ord : Ord

/-- One row of the opcode map: what its fields may hold and the instruction they make. -/
structure Row where
  fmt : BaseFmt := .r
  dK : FieldKind
  aK : FieldKind
  bK : FieldKind
  pred : Bool := false
  q : Nat → Bool := fun q => q == 0
  imm : ImmKind := .none
  cr : Bool := false
  szMax : Nat := 3
  ord : Option (Ord → Bool) := none
  modeCheck : Bool := false
  make : Flds → Instr

/-- The qualifier checks of R31. -/
def qPrec (q : Nat) : Bool := q ≤ 1
def qCvtInt (q : Nat) : Bool := match fmtOf? (q / 2) with | some f => f.isInt | none => false
def qCvtT (q : Nat) : Bool := match fmtOf? (q / 2) with | some f => f.isTapered | none => false
def qSat (q : Nat) : Bool :=
  match fmtOf? (q % 16) with | some f => f.okIF && (q < 16 || f.isInt) | none => false
def qAmo (q : Nat) : Bool := q == 2 || q == 3
def qFmt (ok : Fmt → Bool) (q : Nat) : Bool := match fmtOf? q with | some f => ok f | none => false

/-- The rows of page 0 that are not Z format, by major and fn (R37). -/
def rowPage0 : Nat → Nat → Option Row
  | 1, 0 => some { dK := .any, aK := .any, bK := .any, make := fun x => .add (.ofNat 5 x.d) (.ofNat 5 x.a) (.ofNat 5 x.b) }
  | 1, 1 => some { dK := .any, aK := .any, bK := .any, make := fun x => .sub (.ofNat 5 x.d) (.ofNat 5 x.a) (.ofNat 5 x.b) }
  | 1, 2 => some { dK := .any, aK := .any, bK := .any, make := fun x => .and (.ofNat 5 x.d) (.ofNat 5 x.a) (.ofNat 5 x.b) }
  | 1, 3 => some { dK := .any, aK := .any, bK := .any, make := fun x => .or (.ofNat 5 x.d) (.ofNat 5 x.a) (.ofNat 5 x.b) }
  | 2, 0 => some { dK := .any, aK := .any, bK := .any, make := fun x => .xor (.ofNat 5 x.d) (.ofNat 5 x.a) (.ofNat 5 x.b) }
  | 2, 1 => some { dK := .any, aK := .any, bK := .any, make := fun x => .andn (.ofNat 5 x.d) (.ofNat 5 x.a) (.ofNat 5 x.b) }
  | 2, 2 => some { dK := .any, aK := .any, bK := .any, make := fun x => .sll (.ofNat 5 x.d) (.ofNat 5 x.a) (.ofNat 5 x.b) }
  | 2, 3 => some { dK := .any, aK := .any, bK := .any, make := fun x => .srl (.ofNat 5 x.d) (.ofNat 5 x.a) (.ofNat 5 x.b) }
  | 3, 0 => some { dK := .any, aK := .any, bK := .any, make := fun x => .sra (.ofNat 5 x.d) (.ofNat 5 x.a) (.ofNat 5 x.b) }
  | 3, 1 => some { dK := .any, aK := .any, bK := .any, make := fun x => .ror (.ofNat 5 x.d) (.ofNat 5 x.a) (.ofNat 5 x.b) }
  | 3, 2 => some { dK := .any, aK := .any, bK := .any, make := fun x => .slt (.ofNat 5 x.d) (.ofNat 5 x.a) (.ofNat 5 x.b) }
  | 3, 3 => some { dK := .any, aK := .any, bK := .any, make := fun x => .sltn (.ofNat 5 x.d) (.ofNat 5 x.a) (.ofNat 5 x.b) }
  | 4, 0 => some { dK := .any, aK := .any, bK := .any, make := fun x => .mul (.ofNat 5 x.d) (.ofNat 5 x.a) (.ofNat 5 x.b) }
  | 4, 1 => some { dK := .any, aK := .any, bK := .any, make := fun x => .mulh (.ofNat 5 x.d) (.ofNat 5 x.a) (.ofNat 5 x.b) }
  | 4, 2 => some { dK := .any, aK := .any, bK := .any, make := fun x => .mulhn (.ofNat 5 x.d) (.ofNat 5 x.a) (.ofNat 5 x.b) }
  | 4, 3 => some { dK := .any, aK := .any, bK := .any, make := fun x => .seq (.ofNat 5 x.d) (.ofNat 5 x.a) (.ofNat 5 x.b) }
  | 5, 0 => some { dK := .any, aK := .any, bK := .any, make := fun x => .div (.ofNat 5 x.d) (.ofNat 5 x.a) (.ofNat 5 x.b) }
  | 5, 1 => some { dK := .any, aK := .any, bK := .any, make := fun x => .divn (.ofNat 5 x.d) (.ofNat 5 x.a) (.ofNat 5 x.b) }
  | 5, 2 => some { dK := .any, aK := .any, bK := .any, make := fun x => .rem (.ofNat 5 x.d) (.ofNat 5 x.a) (.ofNat 5 x.b) }
  | 5, 3 => some { dK := .any, aK := .any, bK := .any, make := fun x => .remn (.ofNat 5 x.d) (.ofNat 5 x.a) (.ofNat 5 x.b) }
  | 6, 0 => some { dK := .any, aK := .any, bK := .any, make := fun x => .min (.ofNat 5 x.d) (.ofNat 5 x.a) (.ofNat 5 x.b) }
  | 6, 1 => some { dK := .any, aK := .any, bK := .any, make := fun x => .max (.ofNat 5 x.d) (.ofNat 5 x.a) (.ofNat 5 x.b) }
  | 6, 2 => some { dK := .any, aK := .any, bK := .any, make := fun x => .minn (.ofNat 5 x.d) (.ofNat 5 x.a) (.ofNat 5 x.b) }
  | 6, 3 => some { dK := .any, aK := .any, bK := .any, make := fun x => .maxn (.ofNat 5 x.d) (.ofNat 5 x.a) (.ofNat 5 x.b) }
  | 7, _ => some { fmt := .i, dK := .any, aK := .any, bK := .zero, imm := .signed 5, make := fun x => .addi (.ofNat 5 x.d) (.ofNat 5 x.a) x.imm }
  | 8, _ => some { fmt := .i, dK := .any, aK := .any, bK := .zero, imm := .signed 5, make := fun x => .andi (.ofNat 5 x.d) (.ofNat 5 x.a) x.imm }
  | 9, _ => some { fmt := .i, dK := .any, aK := .any, bK := .zero, imm := .signed 5, make := fun x => .ori (.ofNat 5 x.d) (.ofNat 5 x.a) x.imm }
  | 10, _ => some { fmt := .i, dK := .any, aK := .any, bK := .zero, imm := .signed 5, make := fun x => .xori (.ofNat 5 x.d) (.ofNat 5 x.a) x.imm }
  | 11, _ => some { fmt := .i, dK := .any, aK := .any, bK := .zero, imm := .unsigned 5 63, make := fun x => .slli (.ofNat 5 x.d) (.ofNat 5 x.a) x.imm }
  | 12, _ => some { fmt := .i, dK := .any, aK := .any, bK := .zero, imm := .unsigned 5 63, make := fun x => .srli (.ofNat 5 x.d) (.ofNat 5 x.a) x.imm }
  | 13, _ => some { fmt := .i, dK := .any, aK := .any, bK := .zero, imm := .unsigned 5 63, make := fun x => .srai (.ofNat 5 x.d) (.ofNat 5 x.a) x.imm }
  | 14, _ => some { fmt := .i, dK := .any, aK := .any, bK := .zero, imm := .signed 5, make := fun x => .slti (.ofNat 5 x.d) (.ofNat 5 x.a) x.imm }
  | 15, _ => some { fmt := .u, dK := .any, aK := .zero, bK := .zero, imm := .signed 8, make := fun x => .li (.ofNat 5 x.d) x.imm }
  | 16, _ => some { fmt := .u, dK := .any, aK := .zero, bK := .zero, imm := .unsigned 8 65535, make := fun x => .lih (.ofNat 5 x.d) x.imm }
  | 17, 0 => some { dK := .any, aK := .any, bK := .zero, make := fun x => .clz (.ofNat 5 x.d) (.ofNat 5 x.a) }
  | 17, 1 => some { dK := .any, aK := .any, bK := .zero, make := fun x => .ctz (.ofNat 5 x.d) (.ofNat 5 x.a) }
  | 17, 2 => some { dK := .any, aK := .any, bK := .zero, make := fun x => .popc (.ofNat 5 x.d) (.ofNat 5 x.a) }
  | 17, 3 => some { dK := .any, aK := .any, bK := .size3, make := fun x => .sext (.ofNat 5 x.d) (.ofNat 5 x.a) (.ofNat 2 x.b) }
  | 18, _ => some { fmt := .m, dK := .any, aK := .any, bK := .zero, imm := .signed 3, make := fun x => .ldl (.ofNat 5 x.d) (.ofNat 5 x.a) x.imm (.ofNat 2 x.sz) }
  | 19, _ => some { fmt := .m, dK := .any, aK := .any, bK := .zero, imm := .signed 3, szMax := 2, make := fun x => .ldln (.ofNat 5 x.d) (.ofNat 5 x.a) x.imm (.ofNat 2 x.sz) }
  | 20, _ => some { fmt := .m, dK := .any, aK := .any, bK := .zero, imm := .signed 3, make := fun x => .stl (.ofNat 5 x.d) (.ofNat 5 x.a) x.imm (.ofNat 2 x.sz) }
  | 21, _ => some { fmt := .b, dK := .zero, aK := .any, bK := .any, imm := .signed 5, make := fun x => .beq (.ofNat 5 x.a) (.ofNat 5 x.b) x.imm }
  | 22, _ => some { fmt := .b, dK := .zero, aK := .any, bK := .any, imm := .signed 5, make := fun x => .bne (.ofNat 5 x.a) (.ofNat 5 x.b) x.imm }
  | 23, _ => some { fmt := .b, dK := .zero, aK := .any, bK := .any, imm := .signed 5, make := fun x => .blt (.ofNat 5 x.a) (.ofNat 5 x.b) x.imm }
  | 24, _ => some { fmt := .b, dK := .zero, aK := .any, bK := .any, imm := .signed 5, make := fun x => .bge (.ofNat 5 x.a) (.ofNat 5 x.b) x.imm }
  | 25, _ => some { fmt := .b, dK := .zero, aK := .any, bK := .any, imm := .signed 5, make := fun x => .bltn (.ofNat 5 x.a) (.ofNat 5 x.b) x.imm }
  | 26, _ => some { fmt := .b, dK := .zero, aK := .any, bK := .any, imm := .signed 5, make := fun x => .bgen (.ofNat 5 x.a) (.ofNat 5 x.b) x.imm }
  | 27, _ => some { fmt := .j, dK := .zero, aK := .zero, bK := .zero, imm := .signed 11, make := fun x => .j x.imm }
  | 28, _ => some { fmt := .j, dK := .zero, aK := .zero, bK := .zero, imm := .signed 11, make := fun x => .jal x.imm }
  | 29, 0 => some { dK := .zero, aK := .any, bK := .zero, make := fun x => .jr (.ofNat 5 x.a) }
  | 29, 1 => some { dK := .zero, aK := .any, bK := .zero, make := fun x => .jalr (.ofNat 5 x.a) }
  | 29, 2 => some { dK := .zero, aK := .any, bK := .zero, make := fun x => .ret (.ofNat 5 x.a) }
  | _, _ => none

/-- The rows of page 1 that are not Z format, by major and fn (R39). -/
def rowPage1 : Nat → Nat → Option Row
  | 0, 0 => some { dK := .any, aK := .any, bK := .any, q := qPrec, make := fun x => .fadd (precOf x.q) (.ofNat 5 x.d) (.ofNat 5 x.a) (.ofNat 5 x.b) }
  | 0, 1 => some { dK := .any, aK := .any, bK := .any, q := qPrec, make := fun x => .fsub (precOf x.q) (.ofNat 5 x.d) (.ofNat 5 x.a) (.ofNat 5 x.b) }
  | 0, 2 => some { dK := .any, aK := .any, bK := .any, q := qPrec, make := fun x => .fmul (precOf x.q) (.ofNat 5 x.d) (.ofNat 5 x.a) (.ofNat 5 x.b) }
  | 0, 3 => some { dK := .any, aK := .any, bK := .any, q := qPrec, make := fun x => .fdiv (precOf x.q) (.ofNat 5 x.d) (.ofNat 5 x.a) (.ofNat 5 x.b) }
  | 1, 0 => some { dK := .any, aK := .any, bK := .any, q := qPrec, make := fun x => .fmin (precOf x.q) (.ofNat 5 x.d) (.ofNat 5 x.a) (.ofNat 5 x.b) }
  | 1, 1 => some { dK := .any, aK := .any, bK := .any, q := qPrec, make := fun x => .fmax (precOf x.q) (.ofNat 5 x.d) (.ofNat 5 x.a) (.ofNat 5 x.b) }
  | 1, 2 => some { dK := .any, aK := .any, bK := .any, q := qPrec, make := fun x => .fsgnj (precOf x.q) (.ofNat 5 x.d) (.ofNat 5 x.a) (.ofNat 5 x.b) }
  | 1, 3 => some { dK := .any, aK := .any, bK := .zero, q := qPrec, make := fun x => .fsqrt (precOf x.q) (.ofNat 5 x.d) (.ofNat 5 x.a) }
  | 2, 0 => some { dK := .any, aK := .any, bK := .any, q := qPrec, make := fun x => .fma (precOf x.q) (.ofNat 5 x.d) (.ofNat 5 x.a) (.ofNat 5 x.b) }
  | 2, 1 => some { dK := .any, aK := .any, bK := .any, q := qPrec, make := fun x => .fms (precOf x.q) (.ofNat 5 x.d) (.ofNat 5 x.a) (.ofNat 5 x.b) }
  | 2, 2 => some { dK := .any, aK := .any, bK := .any, q := qPrec, make := fun x => .fnma (precOf x.q) (.ofNat 5 x.d) (.ofNat 5 x.a) (.ofNat 5 x.b) }
  | 3, 0 => some { dK := .any, aK := .any, bK := .any, q := qPrec, make := fun x => .feq (precOf x.q) (.ofNat 5 x.d) (.ofNat 5 x.a) (.ofNat 5 x.b) }
  | 3, 1 => some { dK := .any, aK := .any, bK := .any, q := qPrec, make := fun x => .flt (precOf x.q) (.ofNat 5 x.d) (.ofNat 5 x.a) (.ofNat 5 x.b) }
  | 3, 2 => some { dK := .any, aK := .any, bK := .any, q := qPrec, make := fun x => .fle (precOf x.q) (.ofNat 5 x.d) (.ofNat 5 x.a) (.ofNat 5 x.b) }
  | 3, 3 => some { dK := .any, aK := .any, bK := .any, q := qPrec, make := fun x => .fun (precOf x.q) (.ofNat 5 x.d) (.ofNat 5 x.a) (.ofNat 5 x.b) }
  | 4, 0 => some { dK := .any, aK := .any, bK := .zero, q := qPrec, make := fun x => .fclass (precOf x.q) (.ofNat 5 x.d) (.ofNat 5 x.a) }
  | 4, 1 => some { dK := .any, aK := .any, bK := .zero, q := qPrec, make := fun x => .fabs (precOf x.q) (.ofNat 5 x.d) (.ofNat 5 x.a) }
  | 4, 2 => some { dK := .any, aK := .any, bK := .zero, q := qPrec, make := fun x => .fneg (precOf x.q) (.ofNat 5 x.d) (.ofNat 5 x.a) }
  | 5, 0 => some { dK := .any, aK := .any, bK := .zero, q := qCvtInt, make := fun x => .fcvtFI (fmtAt (x.q / 2)) (precOf x.q) (.ofNat 5 x.d) (.ofNat 5 x.a) }
  | 5, 1 => some { dK := .any, aK := .any, bK := .zero, q := qCvtInt, make := fun x => .fcvtIF (fmtAt (x.q / 2)) (precOf x.q) (.ofNat 5 x.d) (.ofNat 5 x.a) }
  | 5, 2 => some { dK := .any, aK := .any, bK := .zero, q := qPrec, make := fun x => .fcvtFF (precOf x.q) (.ofNat 5 x.d) (.ofNat 5 x.a) }
  | 5, 3 => some { dK := .any, aK := .any, bK := .dir, q := qCvtT, make := fun x => .fcvtT (fmtAt (x.q / 2)) (precOf x.q) (.ofNat 5 x.d) (.ofNat 5 x.a) (x.b == 1) }
  | _, _ => none

/-- The rows of page 2 that are not Z format, by major and fn (R40). -/
def rowPage2 : Nat → Nat → Option Row
  | 0, 0 => some { dK := .any, aK := .any, bK := .any, pred := true, q := qSat, make := fun x => .vadd (x.q / 16 == 1) (fmtAt (x.q % 16)) (.ofNat 5 x.d) (.ofNat 5 x.a) (.ofNat 5 x.b) (.ofNat 3 x.pred) }
  | 0, 1 => some { dK := .any, aK := .any, bK := .any, pred := true, q := qSat, make := fun x => .vsub (x.q / 16 == 1) (fmtAt (x.q % 16)) (.ofNat 5 x.d) (.ofNat 5 x.a) (.ofNat 5 x.b) (.ofNat 3 x.pred) }
  | 0, 2 => some { dK := .any, aK := .any, bK := .any, pred := true, q := qFmt (·.okIF), make := fun x => .vmul (fmtAt (x.q % 16)) (.ofNat 5 x.d) (.ofNat 5 x.a) (.ofNat 5 x.b) (.ofNat 3 x.pred) }
  | 0, 3 => some { dK := .any, aK := .any, bK := .any, pred := true, q := qFmt (·.isInt), make := fun x => .vmulh (fmtAt (x.q % 16)) (.ofNat 5 x.d) (.ofNat 5 x.a) (.ofNat 5 x.b) (.ofNat 3 x.pred) }
  | 1, 0 => some { dK := .any, aK := .any, bK := .any, pred := true, q := qFmt (·.okIF), make := fun x => .vmin (fmtAt (x.q % 16)) (.ofNat 5 x.d) (.ofNat 5 x.a) (.ofNat 5 x.b) (.ofNat 3 x.pred) }
  | 1, 1 => some { dK := .any, aK := .any, bK := .any, pred := true, q := qFmt (·.okIF), make := fun x => .vmax (fmtAt (x.q % 16)) (.ofNat 5 x.d) (.ofNat 5 x.a) (.ofNat 5 x.b) (.ofNat 3 x.pred) }
  | 1, 2 => some { dK := .any, aK := .any, bK := .zero, pred := true, q := qFmt (·.okIF), make := fun x => .vabs (fmtAt (x.q % 16)) (.ofNat 5 x.d) (.ofNat 5 x.a) (.ofNat 3 x.pred) }
  | 1, 3 => some { dK := .any, aK := .any, bK := .zero, pred := true, q := qFmt (·.okIF), make := fun x => .vneg (fmtAt (x.q % 16)) (.ofNat 5 x.d) (.ofNat 5 x.a) (.ofNat 3 x.pred) }
  | 2, 0 => some { dK := .any, aK := .any, bK := .any, pred := true, q := qFmt (·.okIFT8), make := fun x => .vand (fmtAt (x.q % 16)) (.ofNat 5 x.d) (.ofNat 5 x.a) (.ofNat 5 x.b) (.ofNat 3 x.pred) }
  | 2, 1 => some { dK := .any, aK := .any, bK := .any, pred := true, q := qFmt (·.okIFT8), make := fun x => .vor (fmtAt (x.q % 16)) (.ofNat 5 x.d) (.ofNat 5 x.a) (.ofNat 5 x.b) (.ofNat 3 x.pred) }
  | 2, 2 => some { dK := .any, aK := .any, bK := .any, pred := true, q := qFmt (·.okIFT8), make := fun x => .vxor (fmtAt (x.q % 16)) (.ofNat 5 x.d) (.ofNat 5 x.a) (.ofNat 5 x.b) (.ofNat 3 x.pred) }
  | 2, 3 => some { dK := .any, aK := .any, bK := .any, pred := true, q := qFmt (·.okIFT8), make := fun x => .vandn (fmtAt (x.q % 16)) (.ofNat 5 x.d) (.ofNat 5 x.a) (.ofNat 5 x.b) (.ofNat 3 x.pred) }
  | 3, 0 => some { dK := .any, aK := .any, bK := .any, pred := true, q := qFmt (·.isInt), make := fun x => .vshl (fmtAt (x.q % 16)) (.ofNat 5 x.d) (.ofNat 5 x.a) (.ofNat 5 x.b) (.ofNat 3 x.pred) }
  | 3, 1 => some { dK := .any, aK := .any, bK := .any, pred := true, q := qFmt (·.isInt), make := fun x => .vshr (fmtAt (x.q % 16)) (.ofNat 5 x.d) (.ofNat 5 x.a) (.ofNat 5 x.b) (.ofNat 3 x.pred) }
  | 3, 2 => some { dK := .any, aK := .any, bK := .any, pred := true, q := qFmt (·.isInt), make := fun x => .vsar (fmtAt (x.q % 16)) (.ofNat 5 x.d) (.ofNat 5 x.a) (.ofNat 5 x.b) (.ofNat 3 x.pred) }
  | 3, 3 => some { dK := .any, aK := .any, bK := .any, pred := true, q := qFmt (·.isInt), make := fun x => .vror (fmtAt (x.q % 16)) (.ofNat 5 x.d) (.ofNat 5 x.a) (.ofNat 5 x.b) (.ofNat 3 x.pred) }
  | 4, 0 => some { dK := .any, aK := .any, bK := .any, pred := true, q := qFmt (·.isIeee), make := fun x => .vfma (fmtAt (x.q % 16)) (.ofNat 5 x.d) (.ofNat 5 x.a) (.ofNat 5 x.b) (.ofNat 3 x.pred) }
  | 4, 1 => some { dK := .any, aK := .any, bK := .any, pred := true, q := qFmt (·.isIeee), make := fun x => .vfms (fmtAt (x.q % 16)) (.ofNat 5 x.d) (.ofNat 5 x.a) (.ofNat 5 x.b) (.ofNat 3 x.pred) }
  | 4, 2 => some { dK := .any, aK := .any, bK := .any, pred := true, q := qFmt (·.isIeee), make := fun x => .vfnma (fmtAt (x.q % 16)) (.ofNat 5 x.d) (.ofNat 5 x.a) (.ofNat 5 x.b) (.ofNat 3 x.pred) }
  | 5, 0 => some { dK := .low8, aK := .any, bK := .any, pred := true, q := qFmt (·.okIF), make := fun x => .vcmpEq (fmtAt (x.q % 16)) (.ofNat 3 x.d) (.ofNat 5 x.a) (.ofNat 5 x.b) (.ofNat 3 x.pred) }
  | 5, 1 => some { dK := .low8, aK := .any, bK := .any, pred := true, q := qFmt (·.okIF), make := fun x => .vcmpLt (fmtAt (x.q % 16)) (.ofNat 3 x.d) (.ofNat 5 x.a) (.ofNat 5 x.b) (.ofNat 3 x.pred) }
  | 5, 2 => some { dK := .low8, aK := .any, bK := .any, pred := true, q := qFmt (·.okIF), make := fun x => .vcmpLe (fmtAt (x.q % 16)) (.ofNat 3 x.d) (.ofNat 5 x.a) (.ofNat 5 x.b) (.ofNat 3 x.pred) }
  | 5, 3 => some { dK := .low8, aK := .any, bK := .any, pred := true, q := qFmt (·.isIeee), make := fun x => .vcmpUn (fmtAt (x.q % 16)) (.ofNat 3 x.d) (.ofNat 5 x.a) (.ofNat 5 x.b) (.ofNat 3 x.pred) }
  | 6, 0 => some { dK := .any, aK := .any, bK := .any, pred := true, q := qFmt (·.okIFT8), make := fun x => .vsel (fmtAt (x.q % 16)) (.ofNat 5 x.d) (.ofNat 5 x.a) (.ofNat 5 x.b) (.ofNat 3 x.pred) }
  | 6, 1 => some { dK := .any, aK := .any, bK := .any, pred := true, q := qFmt (·.okIFT8), make := fun x => .vperm (fmtAt (x.q % 16)) (.ofNat 5 x.d) (.ofNat 5 x.a) (.ofNat 5 x.b) (.ofNat 3 x.pred) }
  | 6, 2 => some { dK := .any, aK := .any, bK := .zero, pred := true, q := qFmt (·.okIFT8), make := fun x => .vbcst (fmtAt (x.q % 16)) (.ofNat 5 x.d) (.ofNat 5 x.a) (.ofNat 3 x.pred) }
  | 6, 3 => some { dK := .any, aK := .any, bK := .any, q := qFmt (·.okIFT8), make := fun x => .vext (fmtAt (x.q % 16)) (.ofNat 5 x.d) (.ofNat 5 x.a) (.ofNat 5 x.b) }
  | 7, 0 => some { dK := .any, aK := .any, bK := .zero, pred := true, q := qFmt (·.okIF), make := fun x => .vredSum (fmtAt (x.q % 16)) (.ofNat 5 x.d) (.ofNat 5 x.a) (.ofNat 3 x.pred) }
  | 7, 1 => some { dK := .any, aK := .any, bK := .zero, pred := true, q := qFmt (·.okIF), make := fun x => .vredMax (fmtAt (x.q % 16)) (.ofNat 5 x.d) (.ofNat 5 x.a) (.ofNat 3 x.pred) }
  | 7, 2 => some { dK := .any, aK := .any, bK := .zero, pred := true, q := qFmt (·.okIF), make := fun x => .vredMin (fmtAt (x.q % 16)) (.ofNat 5 x.d) (.ofNat 5 x.a) (.ofNat 3 x.pred) }
  | 7, 3 => some { dK := .any, aK := .any, bK := .zero, pred := true, q := qFmt (·.isIeee), make := fun x => .vredSsq (fmtAt (x.q % 16)) (.ofNat 5 x.d) (.ofNat 5 x.a) (.ofNat 3 x.pred) }
  | 8, 0 => some { dK := .any, aK := .any, bK := .zero, pred := true, q := qFmt (·.okF3), make := fun x => .vexp2 (fmtAt (x.q % 16)) (.ofNat 5 x.d) (.ofNat 5 x.a) (.ofNat 3 x.pred) }
  | 8, 1 => some { dK := .any, aK := .any, bK := .zero, pred := true, q := qFmt (·.okF3), make := fun x => .vlog2 (fmtAt (x.q % 16)) (.ofNat 5 x.d) (.ofNat 5 x.a) (.ofNat 3 x.pred) }
  | 8, 2 => some { dK := .any, aK := .any, bK := .zero, pred := true, q := qFmt (·.okF3), make := fun x => .vrcp (fmtAt (x.q % 16)) (.ofNat 5 x.d) (.ofNat 5 x.a) (.ofNat 3 x.pred) }
  | 8, 3 => some { dK := .any, aK := .any, bK := .zero, pred := true, q := qFmt (·.okF3), make := fun x => .vrsq (fmtAt (x.q % 16)) (.ofNat 5 x.d) (.ofNat 5 x.a) (.ofNat 3 x.pred) }
  | 9, _ => some { fmt := .i, dK := .any, aK := .any, bK := .zero, pred := true, q := qFmt (fun _ => true), imm := .unsigned 5 13, make := fun x => .vcvt (fmtAt (x.q % 16)) (.ofNat 5 x.d) (.ofNat 5 x.a) (.ofNat 3 x.pred) (fmtAt x.imm.toNat) }
  | 10, _ => some { fmt := .i, dK := .any, aK := .any, bK := .zero, pred := true, q := qFmt (·.isIeee), imm := .signed 5, make := fun x => .vscale (fmtAt (x.q % 16)) (.ofNat 5 x.d) (.ofNat 5 x.a) (.ofNat 3 x.pred) x.imm }
  | 11, _ => some { fmt := .i, dK := .any, aK := .zero, bK := .zero, pred := true, q := qFmt (·.okIFT8), imm := .signed 5, make := fun x => .vli (fmtAt (x.q % 16)) (.ofNat 5 x.d) (.ofNat 3 x.pred) x.imm }
  | 12, 0 => some { dK := .any, aK := .any, bK := .zero, pred := true, q := qFmt (fun _ => true), make := fun x => .vldlUnit (fmtAt (x.q % 16)) (.ofNat 5 x.d) (.ofNat 5 x.a) (.ofNat 3 x.pred) }
  | 12, 1 => some { dK := .any, aK := .any, bK := .any, pred := true, q := qFmt (·.okNoT6), make := fun x => .vldlStr (fmtAt (x.q % 16)) (.ofNat 5 x.d) (.ofNat 5 x.a) (.ofNat 5 x.b) (.ofNat 3 x.pred) }
  | 12, 2 => some { dK := .any, aK := .any, bK := .any, pred := true, q := qFmt (·.okWide), make := fun x => .vldlGat (fmtAt (x.q % 16)) (.ofNat 5 x.d) (.ofNat 5 x.a) (.ofNat 5 x.b) (.ofNat 3 x.pred) }
  | 12, 3 => some { dK := .any, aK := .any, bK := .zero, pred := true, q := qFmt (fun _ => true), make := fun x => .vldlBc (fmtAt (x.q % 16)) (.ofNat 5 x.d) (.ofNat 5 x.a) (.ofNat 3 x.pred) }
  | 13, 0 => some { dK := .any, aK := .any, bK := .zero, pred := true, q := qFmt (fun _ => true), make := fun x => .vstlUnit (fmtAt (x.q % 16)) (.ofNat 5 x.d) (.ofNat 5 x.a) (.ofNat 3 x.pred) }
  | 13, 1 => some { dK := .any, aK := .any, bK := .any, pred := true, q := qFmt (·.okNoT6), make := fun x => .vstlStr (fmtAt (x.q % 16)) (.ofNat 5 x.d) (.ofNat 5 x.a) (.ofNat 5 x.b) (.ofNat 3 x.pred) }
  | 13, 2 => some { dK := .any, aK := .any, bK := .any, pred := true, q := qFmt (·.okWide), make := fun x => .vstlSca (fmtAt (x.q % 16)) (.ofNat 5 x.d) (.ofNat 5 x.a) (.ofNat 5 x.b) (.ofNat 3 x.pred) }
  | 14, 0 => some { dK := .low8, aK := .low8, bK := .low8, make := fun x => .pand (.ofNat 3 x.d) (.ofNat 3 x.a) (.ofNat 3 x.b) }
  | 14, 1 => some { dK := .low8, aK := .low8, bK := .low8, make := fun x => .por (.ofNat 3 x.d) (.ofNat 3 x.a) (.ofNat 3 x.b) }
  | 14, 2 => some { dK := .low8, aK := .low8, bK := .low8, make := fun x => .pxor (.ofNat 3 x.d) (.ofNat 3 x.a) (.ofNat 3 x.b) }
  | 14, 3 => some { dK := .low8, aK := .low8, bK := .zero, make := fun x => .pnot (.ofNat 3 x.d) (.ofNat 3 x.a) }
  | 15, 0 => some { dK := .any, aK := .low8, bK := .zero, make := fun x => .pcnt (.ofNat 5 x.d) (.ofNat 3 x.a) }
  | 15, 1 => some { dK := .any, aK := .low8, bK := .zero, make := fun x => .pffs (.ofNat 5 x.d) (.ofNat 3 x.a) }
  | 15, 2 => some { dK := .low8, aK := .any, bK := .zero, make := fun x => .pset (.ofNat 3 x.d) (.ofNat 5 x.a) }
  | _, _ => none

/-- The rows of page 3 that are not Z format, by major and fn (R41). -/
def rowPage3 : Nat → Nat → Option Row
  | 0, 0 => some { dK := .low8, aK := .any, bK := .any, q := qFmt (·.okTile), make := fun x => .tld (fmtAt (x.q % 16)) (.ofNat 3 x.d) (.ofNat 5 x.a) (.ofNat 5 x.b) }
  | 0, 1 => some { dK := .low8, aK := .any, bK := .any, q := qFmt (·.okTileT), make := fun x => .tldT (fmtAt (x.q % 16)) (.ofNat 3 x.d) (.ofNat 5 x.a) (.ofNat 5 x.b) }
  | 0, 2 => some { dK := .low8, aK := .any, bK := .any, q := qFmt (·.okTile), make := fun x => .tst (fmtAt (x.q % 16)) (.ofNat 3 x.d) (.ofNat 5 x.a) (.ofNat 5 x.b) }
  | 1, 0 => some { dK := .low4, aK := .low8, bK := .low8, make := fun x => .tmma (.ofNat 2 x.d) (.ofNat 3 x.a) (.ofNat 3 x.b) }
  | 1, 1 => some { dK := .low4, aK := .low8, bK := .low8, make := fun x => .tmmaBt (.ofNat 2 x.d) (.ofNat 3 x.a) (.ofNat 3 x.b) }
  | 1, 2 => some { dK := .low4, aK := .low8, bK := .any, make := fun x => .tmmaSp (.ofNat 2 x.d) (.ofNat 3 x.a) (.ofNat 5 x.b) }
  | 2, 0 => some { dK := .low4, aK := .zero, bK := .zero, make := fun x => .azero (.ofNat 2 x.d) }
  | 2, 1 => some { dK := .low4, aK := .any, bK := .zero, make := fun x => .ald (.ofNat 2 x.d) (.ofNat 5 x.a) }
  | 2, 2 => some { dK := .low4, aK := .any, bK := .zero, make := fun x => .ast (.ofNat 2 x.d) (.ofNat 5 x.a) }
  | 2, 3 => some { dK := .low4, aK := .low4, bK := .zero, make := fun x => .aadd (.ofNat 2 x.d) (.ofNat 2 x.a) }
  | 3, 0 => some { dK := .low8, aK := .low4, bK := .mode, q := qFmt (·.okTile), modeCheck := true, make := fun x => .acvt (fmtAt (x.q % 16)) (.ofNat 3 x.d) (.ofNat 2 x.a) (.ofNat 2 x.b) }
  | 3, 1 => some { dK := .any, aK := .low4, bK := .any, q := qFmt (·.okAcvtV), make := fun x => .acvtV (fmtAt (x.q % 16)) (.ofNat 5 x.d) (.ofNat 2 x.a) (.ofNat 5 x.b) }
  | 3, 2 => some { dK := .low8, aK := .any, bK := .any, q := qFmt (·.okTile), make := fun x => .tmov (fmtAt (x.q % 16)) (.ofNat 3 x.d) (.ofNat 5 x.a) (.ofNat 5 x.b) }
  | 3, 3 => some { dK := .low8, aK := .low8, bK := .zero, q := qFmt (·.okTile16), make := fun x => .ttrn (fmtAt (x.q % 16)) (.ofNat 3 x.d) (.ofNat 3 x.a) }
  | 4, _ => some { fmt := .u, dK := .count, aK := .zero, bK := .zero, imm := .unsigned 8 16777215, make := fun x => .rpt (.ofNat 4 x.d) x.imm }
  | 5, _ => some { fmt := .i, dK := .stagger, aK := .zero, bK := .zero, imm := .signed 5, make := fun x => .rpts (.ofNat 3 x.d) x.imm }
  | _, _ => none

/-- The rows of page 4 that are not Z format, by major and fn (R42). -/
def rowPage4 : Nat → Nat → Option Row
  | 0, _ => some { fmt := .m, dK := .any, aK := .any, bK := .zero, imm := .signed 3, ord := some (·.okLoad), make := fun x => .ldg (.ofNat 5 x.d) (.ofNat 5 x.a) x.imm (.ofNat 2 x.sz) x.ord }
  | 1, _ => some { fmt := .m, dK := .any, aK := .any, bK := .zero, imm := .signed 3, szMax := 2, ord := some (·.okLoad), make := fun x => .ldgn (.ofNat 5 x.d) (.ofNat 5 x.a) x.imm (.ofNat 2 x.sz) x.ord }
  | 2, _ => some { fmt := .m, dK := .any, aK := .any, bK := .zero, imm := .signed 3, ord := some (·.okStore), make := fun x => .stg (.ofNat 5 x.d) (.ofNat 5 x.a) x.imm (.ofNat 2 x.sz) x.ord }
  | 3, 0 => some { dK := .any, aK := .any, bK := .any, q := qAmo, ord := some (·.okAmo), make := fun x => .amoadd (if x.q == 3 then .dword else .word) (.ofNat 5 x.d) (.ofNat 5 x.a) (.ofNat 5 x.b) x.ord }
  | 3, 1 => some { dK := .any, aK := .any, bK := .any, q := qAmo, ord := some (·.okAmo), make := fun x => .amoand (if x.q == 3 then .dword else .word) (.ofNat 5 x.d) (.ofNat 5 x.a) (.ofNat 5 x.b) x.ord }
  | 3, 2 => some { dK := .any, aK := .any, bK := .any, q := qAmo, ord := some (·.okAmo), make := fun x => .amoor (if x.q == 3 then .dword else .word) (.ofNat 5 x.d) (.ofNat 5 x.a) (.ofNat 5 x.b) x.ord }
  | 3, 3 => some { dK := .any, aK := .any, bK := .any, q := qAmo, ord := some (·.okAmo), make := fun x => .amoxor (if x.q == 3 then .dword else .word) (.ofNat 5 x.d) (.ofNat 5 x.a) (.ofNat 5 x.b) x.ord }
  | 4, 0 => some { dK := .any, aK := .any, bK := .any, q := qAmo, ord := some (·.okAmo), make := fun x => .amomin (if x.q == 3 then .dword else .word) (.ofNat 5 x.d) (.ofNat 5 x.a) (.ofNat 5 x.b) x.ord }
  | 4, 1 => some { dK := .any, aK := .any, bK := .any, q := qAmo, ord := some (·.okAmo), make := fun x => .amomax (if x.q == 3 then .dword else .word) (.ofNat 5 x.d) (.ofNat 5 x.a) (.ofNat 5 x.b) x.ord }
  | 4, 2 => some { dK := .any, aK := .any, bK := .any, q := qAmo, ord := some (·.okAmo), make := fun x => .amominn (if x.q == 3 then .dword else .word) (.ofNat 5 x.d) (.ofNat 5 x.a) (.ofNat 5 x.b) x.ord }
  | 4, 3 => some { dK := .any, aK := .any, bK := .any, q := qAmo, ord := some (·.okAmo), make := fun x => .amomaxn (if x.q == 3 then .dword else .word) (.ofNat 5 x.d) (.ofNat 5 x.a) (.ofNat 5 x.b) x.ord }
  | 5, 0 => some { dK := .any, aK := .any, bK := .any, q := qAmo, ord := some (·.okAmo), make := fun x => .amoswp (if x.q == 3 then .dword else .word) (.ofNat 5 x.d) (.ofNat 5 x.a) (.ofNat 5 x.b) x.ord }
  | 5, 1 => some { dK := .any, aK := .any, bK := .any, q := qAmo, ord := some (·.okAmo), make := fun x => .amocas (if x.q == 3 then .dword else .word) (.ofNat 5 x.d) (.ofNat 5 x.a) (.ofNat 5 x.b) x.ord }
  | 7, 0 => some { dK := .zero, aK := .any, bK := .zero, ord := some (·.okLine), make := fun x => .cclean (.ofNat 5 x.a) x.ord }
  | 7, 1 => some { dK := .zero, aK := .any, bK := .zero, ord := some (·.okLine), make := fun x => .cinv (.ofNat 5 x.a) x.ord }
  | 7, 2 => some { dK := .zero, aK := .any, bK := .zero, ord := some (·.okLine), make := fun x => .cdisc (.ofNat 5 x.a) x.ord }
  | 7, 3 => some { dK := .zero, aK := .any, bK := .zero, ord := some (·.okPref), make := fun x => .pref (.ofNat 5 x.a) x.ord }
  | 8, 0 => some { dK := .any, aK := .any, bK := .zero, make := fun x => .cpin (.ofNat 5 x.d) (.ofNat 5 x.a) }
  | 8, 1 => some { dK := .any, aK := .any, bK := .zero, make := fun x => .cunpin (.ofNat 5 x.d) (.ofNat 5 x.a) }
  | 9, 0 => some { dK := .not31, aK := .any, bK := .any, make := fun x => .gaddr (.ofNat 5 x.d) (.ofNat 5 x.a) (.ofNat 5 x.b) }
  | 10, 0 => some { dK := .any, aK := .any, bK := .any, make := fun x => .mkga (.ofNat 5 x.d) (.ofNat 5 x.a) (.ofNat 5 x.b) }
  | 11, _ => some { dK := .any, aK := .window, bK := .any, make := fun x => .ldpw (.ofNat 5 x.d) (.ofNat 2 x.a) (.ofNat 5 x.b) (.ofNat 2 x.sz) }
  | _, _ => none

/-- The rows of page 5 that are not Z format, by major and fn (R43). -/
def rowPage5 : Nat → Nat → Option Row
  | 0, 0 => some { dK := .any, aK := .any, bK := .any, make := fun x => .oinit (.ofNat 5 x.d) (.ofNat 5 x.a) (.ofNat 5 x.b) }
  | 0, 1 => some { dK := .any, aK := .any, bK := .zero, make := fun x => .odestroy (.ofNat 5 x.d) (.ofNat 5 x.a) }
  | 0, 2 => some { dK := .any, aK := .any, bK := .any, make := fun x => .oquery (.ofNat 5 x.d) (.ofNat 5 x.a) (.ofNat 5 x.b) }
  | 0, 3 => some { dK := .not31, aK := .any, bK := .zero, make := fun x => .okill (.ofNat 5 x.d) (.ofNat 5 x.a) }
  | 1, 0 => some { dK := .not31, aK := .any, bK := .any, make := fun x => .cntadd (.ofNat 5 x.d) (.ofNat 5 x.a) (.ofNat 5 x.b) }
  | 1, 1 => some { dK := .zero, aK := .any, bK := .any, make := fun x => .cntaddP (.ofNat 5 x.a) (.ofNat 5 x.b) }
  | 1, 2 => some { dK := .not31, aK := .any, bK := .any, make := fun x => .cntwait (.ofNat 5 x.d) (.ofNat 5 x.a) (.ofNat 5 x.b) }
  | 1, 3 => some { dK := .not31, aK := .any, bK := .any, make := fun x => .cntwaitNw (.ofNat 5 x.d) (.ofNat 5 x.a) (.ofNat 5 x.b) }
  | 2, 0 => some { dK := .not31, aK := .any, bK := .zero, make := fun x => .bararr (.ofNat 5 x.d) (.ofNat 5 x.a) }
  | 2, 1 => some { dK := .not31, aK := .any, bK := .any, make := fun x => .barwait (.ofNat 5 x.d) (.ofNat 5 x.a) (.ofNat 5 x.b) }
  | 2, 2 => some { dK := .not31, aK := .any, bK := .zero, make := fun x => .baraw (.ofNat 5 x.d) (.ofNat 5 x.a) }
  | 2, 3 => some { dK := .not31, aK := .any, bK := .any, make := fun x => .baradj (.ofNat 5 x.d) (.ofNat 5 x.a) (.ofNat 5 x.b) }
  | 3, 0 => some { dK := .not31, aK := .any, bK := .zero, make := fun x => .tlkacq (.ofNat 5 x.d) (.ofNat 5 x.a) }
  | 3, 1 => some { dK := .not31, aK := .any, bK := .zero, make := fun x => .tlkacqNw (.ofNat 5 x.d) (.ofNat 5 x.a) }
  | 3, 2 => some { dK := .any, aK := .any, bK := .zero, make := fun x => .tlkrel (.ofNat 5 x.d) (.ofNat 5 x.a) }
  | 4, 0 => some { dK := .not31, aK := .any, bK := .any, make := fun x => .bqpush (.ofNat 5 x.d) (.ofNat 5 x.a) (.ofNat 5 x.b) }
  | 4, 1 => some { dK := .not31, aK := .any, bK := .any, make := fun x => .bqpushNw (.ofNat 5 x.d) (.ofNat 5 x.a) (.ofNat 5 x.b) }
  | 4, 2 => some { dK := .not31, aK := .any, bK := .any, make := fun x => .bqpop (.ofNat 5 x.d) (.ofNat 5 x.a) (.ofNat 5 x.b) }
  | 4, 3 => some { dK := .not31, aK := .any, bK := .any, make := fun x => .bqpopNw (.ofNat 5 x.d) (.ofNat 5 x.a) (.ofNat 5 x.b) }
  | 5, 0 => some { dK := .any, aK := .any, bK := .zero, make := fun x => .cvwait (.ofNat 5 x.d) (.ofNat 5 x.a) }
  | 5, 1 => some { dK := .not31, aK := .any, bK := .zero, make := fun x => .cvsig (.ofNat 5 x.d) (.ofNat 5 x.a) }
  | 5, 2 => some { dK := .not31, aK := .any, bK := .zero, make := fun x => .cvbc (.ofNat 5 x.d) (.ofNat 5 x.a) }
  | _, _ => none

/-- The rows of page 6 that are not Z format, by major and fn (R43). -/
def rowPage6 : Nat → Nat → Option Row
  | 0, 0 => some { dK := .not31, aK := .any, bK := .zero, make := fun x => .vcpub (.ofNat 5 x.d) (.ofNat 5 x.a) }
  | 0, 1 => some { dK := .not31, aK := .any, bK := .zero, make := fun x => .vcfin (.ofNat 5 x.d) (.ofNat 5 x.a) }
  | 0, 2 => some { dK := .not31, aK := .any, bK := .zero, make := fun x => .vcrsv (.ofNat 5 x.d) (.ofNat 5 x.a) }
  | 0, 3 => some { dK := .not31, aK := .any, bK := .zero, make := fun x => .vcstop (.ofNat 5 x.d) (.ofNat 5 x.a) }
  | 1, 0 => some { dK := .not31, aK := .any, bK := .any, make := fun x => .vcsub (.ofNat 5 x.d) (.ofNat 5 x.a) (.ofNat 5 x.b) }
  | 1, 1 => some { dK := .not31, aK := .any, bK := .any, make := fun x => .vcack (.ofNat 5 x.d) (.ofNat 5 x.a) (.ofNat 5 x.b) }
  | 1, 2 => some { dK := .any, aK := .zero, bK := .zero, make := fun x => .vcchk (.ofNat 5 x.d) }
  | 1, 3 => some { dK := .not31, aK := .any, bK := .any, make := fun x => .vcunsub (.ofNat 5 x.d) (.ofNat 5 x.a) (.ofNat 5 x.b) }
  | _, _ => none

/-- The rows of page 7 that are not Z format, by major and fn (R43). -/
def rowPage7 : Nat → Nat → Option Row
  | 0, 0 => some { dK := .any, aK := .any, bK := .any, make := fun x => .cpy (.ofNat 5 x.d) (.ofNat 5 x.a) (.ofNat 5 x.b) }
  | 0, 1 => some { dK := .any, aK := .any, bK := .any, make := fun x => .cpyt (.ofNat 5 x.d) (.ofNat 5 x.a) (.ofNat 5 x.b) }
  | 0, 2 => some { dK := .any, aK := .any, bK := .any, make := fun x => .cpyl (.ofNat 5 x.d) (.ofNat 5 x.a) (.ofNat 5 x.b) }
  | 1, 0 => some { dK := .any, aK := .any, bK := .zero, make := fun x => .twany (.ofNat 5 x.d) (.ofNat 5 x.a) }
  | 1, 1 => some { dK := .any, aK := .any, bK := .zero, make := fun x => .twall (.ofNat 5 x.d) (.ofNat 5 x.a) }
  | 1, 2 => some { dK := .any, aK := .any, bK := .zero, make := fun x => .tffr (.ofNat 5 x.d) (.ofNat 5 x.a) }
  | 1, 3 => some { dK := .zero, aK := .any, bK := .zero, make := fun x => .tclr (.ofNat 5 x.a) }
  | _, _ => none

/-- The rows of page 8 that are not Z format, by major and fn (R43). -/
def rowPage8 : Nat → Nat → Option Row
  | 0, _ => some { fmt := .i, dK := .not0, aK := .any, bK := .zero, imm := .unsigned 5 63, make := fun x => .bscall (.ofNat 5 x.d) (.ofNat 5 x.a) x.imm }
  | 1, 0 => some { dK := .any, aK := .any, bK := .any, make := fun x => .bspart (.ofNat 5 x.d) (.ofNat 5 x.a) (.ofNat 5 x.b) }
  | 1, 1 => some { dK := .not31, aK := .any, bK := .zero, make := fun x => .bsstat (.ofNat 5 x.d) (.ofNat 5 x.a) }
  | 1, 2 => some { dK := .any, aK := .any, bK := .zero, make := fun x => .bsabort (.ofNat 5 x.d) (.ofNat 5 x.a) }
  | _, _ => none

/-- The rows of page 9 that are not Z format, by major and fn (R43). -/
def rowPage9 : Nat → Nat → Option Row
  | 0, 0 => some { dK := .any, aK := .any, bK := .any, make := fun x => .xfer (.ofNat 5 x.d) (.ofNat 5 x.a) (.ofNat 5 x.b) }
  | 0, 1 => some { dK := .any, aK := .any, bK := .any, make := fun x => .xferCh (.ofNat 5 x.d) (.ofNat 5 x.a) (.ofNat 5 x.b) }
  | 0, 2 => some { dK := .not31, aK := .any, bK := .any, make := fun x => .coll (.ofNat 5 x.d) (.ofNat 5 x.a) (.ofNat 5 x.b) }
  | 0, 3 => some { dK := .any, aK := .any, bK := .any, make := fun x => .mcst (.ofNat 5 x.d) (.ofNat 5 x.a) (.ofNat 5 x.b) }
  | 1, 0 => some { dK := .not31, aK := .any, bK := .zero, make := fun x => .regwin (.ofNat 5 x.d) (.ofNat 5 x.a) }
  | 1, 1 => some { dK := .any, aK := .any, bK := .any, make := fun x => .revwin (.ofNat 5 x.d) (.ofNat 5 x.a) (.ofNat 5 x.b) }
  | _, _ => none

/-- The rows of page 10 that are not Z format, by major and fn (R43). -/
def rowPage10 : Nat → Nat → Option Row
  | 0, _ => some { fmt := .i, dK := .any, aK := .zero, bK := .zero, imm := .unsigned 5 4095, cr := true, make := fun x => .crr (.ofNat 5 x.d) (x.imm.setWidth 12) }
  | 1, _ => some { fmt := .i, dK := .zero, aK := .any, bK := .zero, imm := .unsigned 5 4095, cr := true, make := fun x => .crw (.ofNat 5 x.a) (x.imm.setWidth 12) }
  | 2, _ => some { fmt := .i, dK := .any, aK := .any, bK := .zero, imm := .unsigned 5 4095, cr := true, make := fun x => .crx (.ofNat 5 x.d) (.ofNat 5 x.a) (x.imm.setWidth 12) }
  | 4, 0 => some { dK := .any, aK := .any, bK := .any, make := fun x => .hndset (.ofNat 5 x.d) (.ofNat 5 x.a) (.ofNat 5 x.b) }
  | 4, 1 => some { dK := .any, aK := .any, bK := .any, make := fun x => .ctxsave (.ofNat 5 x.d) (.ofNat 5 x.a) (.ofNat 5 x.b) }
  | 4, 2 => some { dK := .any, aK := .any, bK := .any, make := fun x => .ctxload (.ofNat 5 x.d) (.ofNat 5 x.a) (.ofNat 5 x.b) }
  | 4, 3 => some { dK := .any, aK := .any, bK := .any, make := fun x => .tlbinv (.ofNat 5 x.d) (.ofNat 5 x.a) (.ofNat 5 x.b) }
  | _, _ => none

/-- The row of a page, major and fn (R37 to R43). -/
def rowOf : Nat → Nat → Nat → Option Row
  | 0, m, f => rowPage0 m f | 1, m, f => rowPage1 m f | 2, m, f => rowPage2 m f | 3, m, f => rowPage3 m f
  | 4, m, f => rowPage4 m f | 5, m, f => rowPage5 m f | 6, m, f => rowPage6 m f | 7, m, f => rowPage7 m f
  | 8, m, f => rowPage8 m f | 9, m, f => rowPage9 m f | 10, m, f => rowPage10 m f | _, _, _ => none

/-- The Z-format instruction of a page and sub field, with whether its own fields are legal; none where the map
lists no instruction (R38, R41, R42, R315). -/
def zRow (page sub : Nat) : Option (Bool × Instr) :=
  if page = 0 then
    if sub = 0 then some (false, .udf 0 0) else if sub = 1 then some (true, .nop)
    else if sub = 2 then some (true, .yield) else if sub = 3 then some (true, .done)
    else if sub = 4 then some (true, .doneAb)
    else if sub / 256 = 1 then some (true, .brk (.ofNat 8 sub)) else none
  else if page = 3 then
    if sub = 0 then some (true, .rptw) else if sub = 1 then some (true, .rptx) else none
  else if page = 4 then
    let scope := sub / 16 % 8
    let rs := sub / 128 % 2 = 1
    some (sub < 256 && scope ≤ 4 && (rs || sub % 16 != 0),
      .fence rs ((scopeOf? scope).getD .core) (.ofNat 4 sub))
  else if page = 10 then
    if sub = 0 then some (true, .eret) else if sub / 256 = 1 then some (true, .trap (.ofNat 8 sub)) else none
  else none

/-- The major of the Z format on a page. -/
def zMajor : Nat → Option Nat
  | 0 => some 0 | 3 => some 6 | 4 => some 6 | 10 => some 3 | _ => none

/-- The halfword is a prefix: its major is IMM or EXT (R26, R29). -/
def isPrefix (h : Half) : Bool := 30 ≤ h.toNat / 2048

/-- The prefixes in front of the base word, at most five of them, and the base word when one follows (R33, R36). -/
def takePrefixes : Nat → List Half → List Half × Option Half
  | 0, _ => ([], none)
  | _ + 1, [] => ([], none)
  | n + 1, h :: t =>
    if isPrefix h then
      let r := takePrefixes n t
      (h :: r.1, r.2)
    else ([], some h)

/-- The prefixes of a group sorted by kind, each EXT with its position; `bad` is the lowest position of a repeated
EXT kind or an EXT of kind 0b11 (R33, R36). -/
structure Prefixes where
  imms : List Nat := []
  immPos : Nat := 9
  reg : Option (Nat × Nat) := none
  page : Option (Nat × Nat) := none
  ord : Option (Nat × Nat) := none
  bad : Nat := 9

/-- Reads the prefixes in address order. -/
def readPrefixes : List Half → Nat → Prefixes → Prefixes
  | [], _, p => p
  | h :: t, pos, p =>
    let v := h.toNat
    let p' : Prefixes :=
      if v / 2048 = 30 then { p with imms := p.imms ++ [v % 2048], immPos := min p.immPos pos }
      else
        match v / 512 % 4 with
        | 0 => if p.reg.isSome then { p with bad := min p.bad pos } else { p with reg := some (pos, v % 512) }
        | 1 => if p.page.isSome then { p with bad := min p.bad pos } else { p with page := some (pos, v % 512) }
        | 2 => if p.ord.isSome then { p with bad := min p.bad pos } else { p with ord := some (pos, v % 512) }
        | _ => { p with bad := min p.bad pos }
    readPrefixes t (pos + 1) p'

/-- What is wrong with a register field: in the base word, and in REG (R27). -/
def fieldBad (k : FieldKind) (lo hi : Nat) : Bool × Bool :=
  match k with
  | .zero => (lo != 0, hi != 0)
  | .any => (false, false)
  | .not31 => (lo == 7 && hi == 3, false)
  | .not0 => (lo == 0 && hi == 0, false)
  | .low8 => (false, hi != 0)
  | .low4 => (4 ≤ lo, hi != 0)
  | .size3 => (3 ≤ lo, hi != 0)
  | .dir => (2 ≤ lo, hi != 0)
  | .mode => (4 ≤ lo, hi != 0)
  | .window => (4 ≤ lo, hi != 0)
  | .count => (false, 2 ≤ hi)
  | .stagger => (6 ≤ lo, hi != 0)

/-- The field names a register, or REG widens it (R30, R41). -/
def takesReg : FieldKind → Bool
  | .any | .not31 | .not0 | .low8 | .low4 | .count => true
  | _ => false

/-- The extended immediate: the IMM payloads in order, then the base field (R28). -/
def immValue (imms : List Nat) (w base : Nat) : Nat := imms.foldl (fun v p => v * 2048 + p) 0 * 2 ^ w + base

/-- The smallest position that a failing check names, 9 when all pass. -/
def firstBad : List (Bool × Nat) → Nat
  | [] => 9
  | (bad, pos) :: t => if bad then min pos (firstBad t) else firstBad t

/-- The ORD prefix of a group as scope, order and hint; none where a field lies outside R32. -/
def ordOf? (v : Nat) : Option Ord :=
  match scopeOf? (v / 64), hintOf? (v % 16) with
  | some s, some h => some { scope := s, order := orderAt (v / 16 % 4), hint := h }
  | _, _ => none

/-- Decodes a base word under a row: the instruction, or the lowest position among its failures (R36). Where the refused
value spans a prefix and the base word, which of the two holds the faulty field is the model's choice (log entry 81):
the base word for d = 31, for d = 0 and for an immediate past its limit, REG for a t, p or a register past its file. -/
def decodeRow (r : Row) (p : Prefixes) (v pos : Nat) : Nat × Instr :=
  let regBits := match p.reg with | some (_, b) => b | none => 0
  let regPos := match p.reg with | some (q, _) => q | none => pos
  let pagePos := match p.page with | some (q, _) => q | none => pos
  let q := match p.page with | some (_, b) => b % 32 | none => 0
  let dh := regBits / 128
  let ah := regBits / 32 % 4
  let bh := regBits / 8 % 4
  let pred := regBits % 8
  let f8 := v / 256 % 8
  let f5 := v / 32 % 8
  let f2 := v / 4 % 8
  let (d, a, b) :=
    match r.fmt with
    | .r => (f8, f5, f2) | .i => (f8, f5, 0) | .m => (f8, f5, 0) | .b => (0, f8, f5) | .u => (f8, 0, 0) | .j => (0, 0, 0)
  let (w, low) :=
    match r.fmt with
    | .i => (5, v % 32) | .m => (3, f2) | .b => (5, v % 32) | .u => (8, v % 256) | .j => (11, v % 2048) | .r => (0, 0)
  let n := immValue p.imms w low
  let imm : Word :=
    match r.imm with
    | .signed w' => sextNat (11 * p.imms.length + w') n
    | _ => BitVec.ofNat 64 n
  let immBad := match r.imm with | .unsigned _ lim => decide (lim < n) | _ => false
  let ord := match p.ord with | some (_, o) => ordOf? o | none => some {}
  let ordBad :=
    match p.ord with
    | none => false
    | some _ =>
      match r.ord, ord with
      | some ok, some o => !ok o
      | _, _ => true
  let x : Flds :=
    { q := q, d := d + 8 * dh, a := a + 8 * ah, b := b + 8 * bh, pred := pred, sz := v % 4, imm := imm,
      ord := ord.getD {} }
  let bad :=
    firstBad
      [((p.imms != []) && r.imm == .none, p.immPos),
       (p.reg.isSome && !(takesReg r.dK || takesReg r.aK || takesReg r.bK), regPos),
       (ordBad, match p.ord with | some (o, _) => o | none => pos),
       (!r.q q, pagePos),
       ((fieldBad r.dK d dh).1, pos), ((fieldBad r.dK d dh).2, regPos),
       ((fieldBad r.aK a ah).1, pos), ((fieldBad r.aK a ah).2, regPos),
       ((fieldBad r.bK b bh).1, pos), ((fieldBad r.bK b bh).2, regPos),
       (!r.pred && pred != 0, regPos),
       (immBad, pos),
       (r.cr && !crKnown n, pos),
       (r.fmt == .m && r.szMax < v % 4, pos),
       (r.modeCheck && r.q q && !acvtModeOk (fmtAt (q % 16)) (.ofNat 2 b), pos)]
  (bad, r.make x)

/-- A qualifier with a bit set that its page leaves unused, or reserved, whatever the instruction is (R31). -/
def pageRefusesQ (page q : Nat) : Bool :=
  match page with
  | 1 => false
  | 2 => 14 ≤ q
  | 3 => 16 ≤ q
  | 4 => 4 ≤ q
  | _ => q != 0

/-- The lowest position that offends in a group whose base word is no instruction: an ORD whose scope or hint R32 refuses
everywhere, a q that the page refuses (R31), a REG whose pred is nonzero off page 2 (R30), or the base word itself (R36;
log entry 80). -/
def strayPos (p : Prefixes) (page q pos : Nat) : Nat :=
  firstBad
    [(match p.ord with | some (_, b) => (ordOf? b).isNone | none => false, (p.ord.getD (9, 0)).1),
     (p.page.isSome && pageRefusesQ page q, (p.page.getD (9, 0)).1),
     (match p.reg with | some (_, b) => page != 2 && b % 8 != 0 | none => false, (p.reg.getD (9, 0)).1),
     (true, pos)]

/-- Decodes the group that starts a list of halfwords: its instruction and its length. None when the list ends
before the group does. Every list of five halfwords decodes. -/
def decode (hs : List Half) : Option (Instr × Nat) :=
  let (pre, base?) := takePrefixes 5 hs
  let p := readPrefixes pre 0 {}
  match base? with
  | none =>
    if pre.length = 5 then
      let pos := min p.bad 4
      some (.nonInstructionPattern (pre.getD pos 0) (.ofNat 3 pos), 5)
    else none
  | some base =>
    let pos := pre.length
    let at? (n : Nat) : Half := if n < pos then pre.getD n 0 else base
    let reject (n : Nat) : Option (Instr × Nat) :=
      some (if base = 0 then .udf (at? n) (.ofNat 3 n) else .nonInstructionPattern (at? n) (.ofNat 3 n), pos + 1)
    if p.bad < 9 then some (.nonInstructionPattern (at? p.bad) (.ofNat 3 p.bad), pos + 1)
    else
      let v := base.toNat
      let page := match p.page with | some (_, b) => b / 32 | none => 0
      let q := match p.page with | some (_, b) => b % 32 | none => 0
      let stray := strayPos p page q pos
      match p.page with
      | some (pp, _) =>
        if page = 0 || 11 ≤ page then reject (strayPos p 1 0 pp)
        else if base = 0 then reject stray
        else if zMajor page = some (v / 2048) then
          match zRow page (v % 2048) with
          | none => reject stray
          | some (ok, i) =>
            let bad := firstBad
              [(p.imms != [], p.immPos), (p.reg.isSome, (p.reg.getD (9, 0)).1), (p.ord.isSome, (p.ord.getD (9, 0)).1),
               (q != 0, pp), (!ok, pos)]
            if bad < 9 then reject bad else some (i, pos + 1)
        else
          match rowOf page (v / 2048) (v % 4) with
          | none => reject stray
          | some r =>
            let (bad, i) := decodeRow r p v pos
            if bad < 9 then reject bad else some (i, pos + 1)
      | none =>
        if v / 2048 = 0 then
          match zRow 0 (v % 2048) with
          | none => reject stray
          | some (ok, i) =>
            let bad := firstBad
              [(p.imms != [], p.immPos), (p.reg.isSome, (p.reg.getD (9, 0)).1), (p.ord.isSome, (p.ord.getD (9, 0)).1),
               (!ok, pos)]
            if bad < 9 then reject bad else some (i, pos + 1)
        else
          match rowOf 0 (v / 2048) (v % 4) with
          | none => reject stray
          | some r =>
            let (bad, i) := decodeRow r p v pos
            if bad < 9 then reject bad else some (i, pos + 1)

/-- The halfwords of a group from its parts (R29, R49). -/
def asm (page q base dh ah bh pred : Nat) (o : Ord) (imms : List Nat) : List Half :=
  (if page = 0 then [] else [BitVec.ofNat 16 (0xFA00 + 32 * page + q)]) ++
  (if dh = 0 ∧ ah = 0 ∧ bh = 0 ∧ pred = 0 then [] else [BitVec.ofNat 16 (0xF800 + 128 * dh + 32 * ah + 8 * bh + pred)]) ++
  (if o = {} then [] else [BitVec.ofNat 16 (0xFC00 + 64 * o.scope.code + 16 * o.order.code + o.hint.code)]) ++
  imms.map (fun p => BitVec.ofNat 16 (0xF000 + p)) ++ [BitVec.ofNat 16 base]

/-- The IMM payloads, most significant first, of a value whose low `w` bits stand in the base word. -/
def payloads (w : Nat) (v : Nat) : Nat → List Nat
  | 0 => []
  | k + 1 => (v / 2 ^ (w + 11 * k)) % 2048 :: payloads w v k

/-- The fewest IMM payloads that hold a value over a field of `w` bits (R49). -/
def immPayloads (signed : Bool) (w : Nat) (v : Word) : List Nat :=
  payloads w v.toNat ((immCount signed w v 5 0).getD 0)

def asmR (page q m d a b fn pred : Nat) (o : Ord) : List Half :=
  asm page q (2048 * m + 256 * (d % 8) + 32 * (a % 8) + 4 * (b % 8) + fn) (d / 8) (a / 8) (b / 8) pred o []

def asmI (page q m d a : Nat) (signed : Bool) (v : Word) (pred : Nat) : List Half :=
  asm page q (2048 * m + 256 * (d % 8) + 32 * (a % 8) + v.toNat % 32) (d / 8) (a / 8) 0 pred {} (immPayloads signed 5 v)

def asmM (page m d a : Nat) (v : Word) (sz : Nat) (o : Ord) : List Half :=
  asm page 0 (2048 * m + 256 * (d % 8) + 32 * (a % 8) + 4 * (v.toNat % 8) + sz) (d / 8) (a / 8) 0 0 o
    (immPayloads true 3 v)

def asmU (page m d : Nat) (signed : Bool) (v : Word) : List Half :=
  asm page 0 (2048 * m + 256 * (d % 8) + v.toNat % 256) (d / 8) 0 0 0 {} (immPayloads signed 8 v)

def asmB (m a b : Nat) (v : Word) : List Half :=
  asm 0 0 (2048 * m + 256 * (a % 8) + 32 * (b % 8) + v.toNat % 32) 0 (a / 8) (b / 8) 0 {} (immPayloads true 5 v)

def asmJ (m : Nat) (v : Word) : List Half :=
  asm 0 0 (2048 * m + v.toNat % 2048) 0 0 0 0 {} (immPayloads true 11 v)

/-- The halfwords of a well-formed instruction in address order, prefixes in the order PAGE, REG, ORD, IMM (R49); the
empty list for a row that has no encoding. -/
def encode : Instr → List Half
  | .udf _ _ => []
  | .nonInstructionPattern _ _ => []
  | .nop => [0x0001]
  | .yield => [0x0002]
  | .done => [0x0003]
  | .doneAb => [0x0004]
  | .brk n => [.ofNat 16 (0x0100 + n.toNat)]
  | .add d a b => asmR 0 0 1 d.toNat a.toNat b.toNat 0 0 {}
  | .sub d a b => asmR 0 0 1 d.toNat a.toNat b.toNat 1 0 {}
  | .and d a b => asmR 0 0 1 d.toNat a.toNat b.toNat 2 0 {}
  | .or d a b => asmR 0 0 1 d.toNat a.toNat b.toNat 3 0 {}
  | .xor d a b => asmR 0 0 2 d.toNat a.toNat b.toNat 0 0 {}
  | .andn d a b => asmR 0 0 2 d.toNat a.toNat b.toNat 1 0 {}
  | .sll d a b => asmR 0 0 2 d.toNat a.toNat b.toNat 2 0 {}
  | .srl d a b => asmR 0 0 2 d.toNat a.toNat b.toNat 3 0 {}
  | .sra d a b => asmR 0 0 3 d.toNat a.toNat b.toNat 0 0 {}
  | .ror d a b => asmR 0 0 3 d.toNat a.toNat b.toNat 1 0 {}
  | .slt d a b => asmR 0 0 3 d.toNat a.toNat b.toNat 2 0 {}
  | .sltn d a b => asmR 0 0 3 d.toNat a.toNat b.toNat 3 0 {}
  | .mul d a b => asmR 0 0 4 d.toNat a.toNat b.toNat 0 0 {}
  | .mulh d a b => asmR 0 0 4 d.toNat a.toNat b.toNat 1 0 {}
  | .mulhn d a b => asmR 0 0 4 d.toNat a.toNat b.toNat 2 0 {}
  | .seq d a b => asmR 0 0 4 d.toNat a.toNat b.toNat 3 0 {}
  | .div d a b => asmR 0 0 5 d.toNat a.toNat b.toNat 0 0 {}
  | .divn d a b => asmR 0 0 5 d.toNat a.toNat b.toNat 1 0 {}
  | .rem d a b => asmR 0 0 5 d.toNat a.toNat b.toNat 2 0 {}
  | .remn d a b => asmR 0 0 5 d.toNat a.toNat b.toNat 3 0 {}
  | .min d a b => asmR 0 0 6 d.toNat a.toNat b.toNat 0 0 {}
  | .max d a b => asmR 0 0 6 d.toNat a.toNat b.toNat 1 0 {}
  | .minn d a b => asmR 0 0 6 d.toNat a.toNat b.toNat 2 0 {}
  | .maxn d a b => asmR 0 0 6 d.toNat a.toNat b.toNat 3 0 {}
  | .addi d a imm => asmI 0 0 7 d.toNat a.toNat true imm 0
  | .andi d a imm => asmI 0 0 8 d.toNat a.toNat true imm 0
  | .ori d a imm => asmI 0 0 9 d.toNat a.toNat true imm 0
  | .xori d a imm => asmI 0 0 10 d.toNat a.toNat true imm 0
  | .slli d a imm => asmI 0 0 11 d.toNat a.toNat false imm 0
  | .srli d a imm => asmI 0 0 12 d.toNat a.toNat false imm 0
  | .srai d a imm => asmI 0 0 13 d.toNat a.toNat false imm 0
  | .slti d a imm => asmI 0 0 14 d.toNat a.toNat true imm 0
  | .li d imm => asmU 0 15 d.toNat true imm
  | .lih d imm => asmU 0 16 d.toNat false imm
  | .clz d a => asmR 0 0 17 d.toNat a.toNat 0 0 0 {}
  | .ctz d a => asmR 0 0 17 d.toNat a.toNat 0 1 0 {}
  | .popc d a => asmR 0 0 17 d.toNat a.toNat 0 2 0 {}
  | .sext d a sz => asmR 0 0 17 d.toNat a.toNat sz.toNat 3 0 {}
  | .ldl d a imm sz => asmM 0 18 d.toNat a.toNat imm sz.toNat {}
  | .ldln d a imm sz => asmM 0 19 d.toNat a.toNat imm sz.toNat {}
  | .stl d a imm sz => asmM 0 20 d.toNat a.toNat imm sz.toNat {}
  | .beq a b imm => asmB 21 a.toNat b.toNat imm
  | .bne a b imm => asmB 22 a.toNat b.toNat imm
  | .blt a b imm => asmB 23 a.toNat b.toNat imm
  | .bge a b imm => asmB 24 a.toNat b.toNat imm
  | .bltn a b imm => asmB 25 a.toNat b.toNat imm
  | .bgen a b imm => asmB 26 a.toNat b.toNat imm
  | .j imm => asmJ 27 imm
  | .jal imm => asmJ 28 imm
  | .jr a => asmR 0 0 29 0 a.toNat 0 0 0 {}
  | .jalr a => asmR 0 0 29 0 a.toNat 0 1 0 {}
  | .ret a => asmR 0 0 29 0 a.toNat 0 2 0 {}
  | .fadd p d a b => asmR 1 p.code 0 d.toNat a.toNat b.toNat 0 0 {}
  | .fsub p d a b => asmR 1 p.code 0 d.toNat a.toNat b.toNat 1 0 {}
  | .fmul p d a b => asmR 1 p.code 0 d.toNat a.toNat b.toNat 2 0 {}
  | .fdiv p d a b => asmR 1 p.code 0 d.toNat a.toNat b.toNat 3 0 {}
  | .fmin p d a b => asmR 1 p.code 1 d.toNat a.toNat b.toNat 0 0 {}
  | .fmax p d a b => asmR 1 p.code 1 d.toNat a.toNat b.toNat 1 0 {}
  | .fsgnj p d a b => asmR 1 p.code 1 d.toNat a.toNat b.toNat 2 0 {}
  | .fsqrt p d a => asmR 1 p.code 1 d.toNat a.toNat 0 3 0 {}
  | .fma p d a b => asmR 1 p.code 2 d.toNat a.toNat b.toNat 0 0 {}
  | .fms p d a b => asmR 1 p.code 2 d.toNat a.toNat b.toNat 1 0 {}
  | .fnma p d a b => asmR 1 p.code 2 d.toNat a.toNat b.toNat 2 0 {}
  | .feq p d a b => asmR 1 p.code 3 d.toNat a.toNat b.toNat 0 0 {}
  | .flt p d a b => asmR 1 p.code 3 d.toNat a.toNat b.toNat 1 0 {}
  | .fle p d a b => asmR 1 p.code 3 d.toNat a.toNat b.toNat 2 0 {}
  | .fun p d a b => asmR 1 p.code 3 d.toNat a.toNat b.toNat 3 0 {}
  | .fclass p d a => asmR 1 p.code 4 d.toNat a.toNat 0 0 0 {}
  | .fabs p d a => asmR 1 p.code 4 d.toNat a.toNat 0 1 0 {}
  | .fneg p d a => asmR 1 p.code 4 d.toNat a.toNat 0 2 0 {}
  | .fcvtFI f p d a => asmR 1 (2 * f.code + p.code) 5 d.toNat a.toNat 0 0 0 {}
  | .fcvtIF f p d a => asmR 1 (2 * f.code + p.code) 5 d.toNat a.toNat 0 1 0 {}
  | .fcvtFF p d a => asmR 1 p.code 5 d.toNat a.toNat 0 2 0 {}
  | .fcvtT f p d a toFloat => asmR 1 (2 * f.code + p.code) 5 d.toNat a.toNat (if toFloat then 1 else 0) 3 0 {}
  | .vadd sat f d a b pr => asmR 2 (16 * sat.toNat + f.code) 0 d.toNat a.toNat b.toNat 0 pr.toNat {}
  | .vsub sat f d a b pr => asmR 2 (16 * sat.toNat + f.code) 0 d.toNat a.toNat b.toNat 1 pr.toNat {}
  | .vmul f d a b pr => asmR 2 f.code 0 d.toNat a.toNat b.toNat 2 pr.toNat {}
  | .vmulh f d a b pr => asmR 2 f.code 0 d.toNat a.toNat b.toNat 3 pr.toNat {}
  | .vmin f d a b pr => asmR 2 f.code 1 d.toNat a.toNat b.toNat 0 pr.toNat {}
  | .vmax f d a b pr => asmR 2 f.code 1 d.toNat a.toNat b.toNat 1 pr.toNat {}
  | .vabs f d a pr => asmR 2 f.code 1 d.toNat a.toNat 0 2 pr.toNat {}
  | .vneg f d a pr => asmR 2 f.code 1 d.toNat a.toNat 0 3 pr.toNat {}
  | .vand f d a b pr => asmR 2 f.code 2 d.toNat a.toNat b.toNat 0 pr.toNat {}
  | .vor f d a b pr => asmR 2 f.code 2 d.toNat a.toNat b.toNat 1 pr.toNat {}
  | .vxor f d a b pr => asmR 2 f.code 2 d.toNat a.toNat b.toNat 2 pr.toNat {}
  | .vandn f d a b pr => asmR 2 f.code 2 d.toNat a.toNat b.toNat 3 pr.toNat {}
  | .vshl f d a b pr => asmR 2 f.code 3 d.toNat a.toNat b.toNat 0 pr.toNat {}
  | .vshr f d a b pr => asmR 2 f.code 3 d.toNat a.toNat b.toNat 1 pr.toNat {}
  | .vsar f d a b pr => asmR 2 f.code 3 d.toNat a.toNat b.toNat 2 pr.toNat {}
  | .vror f d a b pr => asmR 2 f.code 3 d.toNat a.toNat b.toNat 3 pr.toNat {}
  | .vfma f d a b pr => asmR 2 f.code 4 d.toNat a.toNat b.toNat 0 pr.toNat {}
  | .vfms f d a b pr => asmR 2 f.code 4 d.toNat a.toNat b.toNat 1 pr.toNat {}
  | .vfnma f d a b pr => asmR 2 f.code 4 d.toNat a.toNat b.toNat 2 pr.toNat {}
  | .vcmpEq f d a b pr => asmR 2 f.code 5 d.toNat a.toNat b.toNat 0 pr.toNat {}
  | .vcmpLt f d a b pr => asmR 2 f.code 5 d.toNat a.toNat b.toNat 1 pr.toNat {}
  | .vcmpLe f d a b pr => asmR 2 f.code 5 d.toNat a.toNat b.toNat 2 pr.toNat {}
  | .vcmpUn f d a b pr => asmR 2 f.code 5 d.toNat a.toNat b.toNat 3 pr.toNat {}
  | .vsel f d a b pr => asmR 2 f.code 6 d.toNat a.toNat b.toNat 0 pr.toNat {}
  | .vperm f d a b pr => asmR 2 f.code 6 d.toNat a.toNat b.toNat 1 pr.toNat {}
  | .vbcst f d a pr => asmR 2 f.code 6 d.toNat a.toNat 0 2 pr.toNat {}
  | .vext f d a b => asmR 2 f.code 6 d.toNat a.toNat b.toNat 3 0 {}
  | .vredSum f d a pr => asmR 2 f.code 7 d.toNat a.toNat 0 0 pr.toNat {}
  | .vredMax f d a pr => asmR 2 f.code 7 d.toNat a.toNat 0 1 pr.toNat {}
  | .vredMin f d a pr => asmR 2 f.code 7 d.toNat a.toNat 0 2 pr.toNat {}
  | .vredSsq f d a pr => asmR 2 f.code 7 d.toNat a.toNat 0 3 pr.toNat {}
  | .vexp2 f d a pr => asmR 2 f.code 8 d.toNat a.toNat 0 0 pr.toNat {}
  | .vlog2 f d a pr => asmR 2 f.code 8 d.toNat a.toNat 0 1 pr.toNat {}
  | .vrcp f d a pr => asmR 2 f.code 8 d.toNat a.toNat 0 2 pr.toNat {}
  | .vrsq f d a pr => asmR 2 f.code 8 d.toNat a.toNat 0 3 pr.toNat {}
  | .vcvt f d a pr tgt => asmI 2 f.code 9 d.toNat a.toNat false (.ofNat 64 tgt.code) pr.toNat
  | .vscale f d a pr imm => asmI 2 f.code 10 d.toNat a.toNat true imm pr.toNat
  | .vli f d pr imm => asmI 2 f.code 11 d.toNat 0 true imm pr.toNat
  | .vldlUnit f d a pr => asmR 2 f.code 12 d.toNat a.toNat 0 0 pr.toNat {}
  | .vldlStr f d a b pr => asmR 2 f.code 12 d.toNat a.toNat b.toNat 1 pr.toNat {}
  | .vldlGat f d a b pr => asmR 2 f.code 12 d.toNat a.toNat b.toNat 2 pr.toNat {}
  | .vldlBc f d a pr => asmR 2 f.code 12 d.toNat a.toNat 0 3 pr.toNat {}
  | .vstlUnit f d a pr => asmR 2 f.code 13 d.toNat a.toNat 0 0 pr.toNat {}
  | .vstlStr f d a b pr => asmR 2 f.code 13 d.toNat a.toNat b.toNat 1 pr.toNat {}
  | .vstlSca f d a b pr => asmR 2 f.code 13 d.toNat a.toNat b.toNat 2 pr.toNat {}
  | .pand d a b => asmR 2 0 14 d.toNat a.toNat b.toNat 0 0 {}
  | .por d a b => asmR 2 0 14 d.toNat a.toNat b.toNat 1 0 {}
  | .pxor d a b => asmR 2 0 14 d.toNat a.toNat b.toNat 2 0 {}
  | .pnot d a => asmR 2 0 14 d.toNat a.toNat 0 3 0 {}
  | .pcnt d a => asmR 2 0 15 d.toNat a.toNat 0 0 0 {}
  | .pffs d a => asmR 2 0 15 d.toNat a.toNat 0 1 0 {}
  | .pset d a => asmR 2 0 15 d.toNat a.toNat 0 2 0 {}
  | .tld f d a b => asmR 3 f.code 0 d.toNat a.toNat b.toNat 0 0 {}
  | .tldT f d a b => asmR 3 f.code 0 d.toNat a.toNat b.toNat 1 0 {}
  | .tst f d a b => asmR 3 f.code 0 d.toNat a.toNat b.toNat 2 0 {}
  | .tmma d a b => asmR 3 0 1 d.toNat a.toNat b.toNat 0 0 {}
  | .tmmaBt d a b => asmR 3 0 1 d.toNat a.toNat b.toNat 1 0 {}
  | .tmmaSp d a b => asmR 3 0 1 d.toNat a.toNat b.toNat 2 0 {}
  | .azero d => asmR 3 0 2 d.toNat 0 0 0 0 {}
  | .ald d a => asmR 3 0 2 d.toNat a.toNat 0 1 0 {}
  | .ast d a => asmR 3 0 2 d.toNat a.toNat 0 2 0 {}
  | .aadd d a => asmR 3 0 2 d.toNat a.toNat 0 3 0 {}
  | .acvt f d a mode => asmR 3 f.code 3 d.toNat a.toNat mode.toNat 0 0 {}
  | .acvtV f d a b => asmR 3 f.code 3 d.toNat a.toNat b.toNat 1 0 {}
  | .tmov f d a b => asmR 3 f.code 3 d.toNat a.toNat b.toNat 2 0 {}
  | .ttrn f d a => asmR 3 f.code 3 d.toNat a.toNat 0 3 0 {}
  | .rpt n imm => asmU 3 4 n.toNat false imm
  | .rpts field imm => asmI 3 0 5 field.toNat 0 true imm 0
  | .rptw => [0xFA60, 0x3000]
  | .rptx => [0xFA60, 0x3001]
  | .ldg d a imm sz o => asmM 4 0 d.toNat a.toNat imm sz.toNat o
  | .ldgn d a imm sz o => asmM 4 1 d.toNat a.toNat imm sz.toNat o
  | .stg d a imm sz o => asmM 4 2 d.toNat a.toNat imm sz.toNat o
  | .amoadd asz d a b o => asmR 4 (if asz = .dword then 3 else 2) 3 d.toNat a.toNat b.toNat 0 0 o
  | .amoand asz d a b o => asmR 4 (if asz = .dword then 3 else 2) 3 d.toNat a.toNat b.toNat 1 0 o
  | .amoor asz d a b o => asmR 4 (if asz = .dword then 3 else 2) 3 d.toNat a.toNat b.toNat 2 0 o
  | .amoxor asz d a b o => asmR 4 (if asz = .dword then 3 else 2) 3 d.toNat a.toNat b.toNat 3 0 o
  | .amomin asz d a b o => asmR 4 (if asz = .dword then 3 else 2) 4 d.toNat a.toNat b.toNat 0 0 o
  | .amomax asz d a b o => asmR 4 (if asz = .dword then 3 else 2) 4 d.toNat a.toNat b.toNat 1 0 o
  | .amominn asz d a b o => asmR 4 (if asz = .dword then 3 else 2) 4 d.toNat a.toNat b.toNat 2 0 o
  | .amomaxn asz d a b o => asmR 4 (if asz = .dword then 3 else 2) 4 d.toNat a.toNat b.toNat 3 0 o
  | .amoswp asz d a b o => asmR 4 (if asz = .dword then 3 else 2) 5 d.toNat a.toNat b.toNat 0 0 o
  | .amocas asz d a b o => asmR 4 (if asz = .dword then 3 else 2) 5 d.toNat a.toNat b.toNat 1 0 o
  | .fence rs scope kinds => [0xFA80, .ofNat 16 (0x3000 + 128 * rs.toNat + 16 * scope.code + kinds.toNat)]
  | .cclean a o => asmR 4 0 7 0 a.toNat 0 0 0 o
  | .cinv a o => asmR 4 0 7 0 a.toNat 0 1 0 o
  | .cdisc a o => asmR 4 0 7 0 a.toNat 0 2 0 o
  | .pref a o => asmR 4 0 7 0 a.toNat 0 3 0 o
  | .cpin d a => asmR 4 0 8 d.toNat a.toNat 0 0 0 {}
  | .cunpin d a => asmR 4 0 8 d.toNat a.toNat 0 1 0 {}
  | .gaddr d a b => asmR 4 0 9 d.toNat a.toNat b.toNat 0 0 {}
  | .mkga d a b => asmR 4 0 10 d.toNat a.toNat b.toNat 0 0 {}
  | .ldpw d n b sz => asmR 4 0 11 d.toNat n.toNat b.toNat sz.toNat 0 {}
  | .oinit d a b => asmR 5 0 0 d.toNat a.toNat b.toNat 0 0 {}
  | .odestroy d a => asmR 5 0 0 d.toNat a.toNat 0 1 0 {}
  | .oquery d a b => asmR 5 0 0 d.toNat a.toNat b.toNat 2 0 {}
  | .okill d a => asmR 5 0 0 d.toNat a.toNat 0 3 0 {}
  | .cntadd d a b => asmR 5 0 1 d.toNat a.toNat b.toNat 0 0 {}
  | .cntaddP a b => asmR 5 0 1 0 a.toNat b.toNat 1 0 {}
  | .cntwait d a b => asmR 5 0 1 d.toNat a.toNat b.toNat 2 0 {}
  | .cntwaitNw d a b => asmR 5 0 1 d.toNat a.toNat b.toNat 3 0 {}
  | .bararr d a => asmR 5 0 2 d.toNat a.toNat 0 0 0 {}
  | .barwait d a b => asmR 5 0 2 d.toNat a.toNat b.toNat 1 0 {}
  | .baraw d a => asmR 5 0 2 d.toNat a.toNat 0 2 0 {}
  | .baradj d a b => asmR 5 0 2 d.toNat a.toNat b.toNat 3 0 {}
  | .tlkacq d a => asmR 5 0 3 d.toNat a.toNat 0 0 0 {}
  | .tlkacqNw d a => asmR 5 0 3 d.toNat a.toNat 0 1 0 {}
  | .tlkrel d a => asmR 5 0 3 d.toNat a.toNat 0 2 0 {}
  | .bqpush d a b => asmR 5 0 4 d.toNat a.toNat b.toNat 0 0 {}
  | .bqpushNw d a b => asmR 5 0 4 d.toNat a.toNat b.toNat 1 0 {}
  | .bqpop d a b => asmR 5 0 4 d.toNat a.toNat b.toNat 2 0 {}
  | .bqpopNw d a b => asmR 5 0 4 d.toNat a.toNat b.toNat 3 0 {}
  | .cvwait d a => asmR 5 0 5 d.toNat a.toNat 0 0 0 {}
  | .cvsig d a => asmR 5 0 5 d.toNat a.toNat 0 1 0 {}
  | .cvbc d a => asmR 5 0 5 d.toNat a.toNat 0 2 0 {}
  | .vcpub d a => asmR 6 0 0 d.toNat a.toNat 0 0 0 {}
  | .vcfin d a => asmR 6 0 0 d.toNat a.toNat 0 1 0 {}
  | .vcrsv d a => asmR 6 0 0 d.toNat a.toNat 0 2 0 {}
  | .vcstop d a => asmR 6 0 0 d.toNat a.toNat 0 3 0 {}
  | .vcsub d a b => asmR 6 0 1 d.toNat a.toNat b.toNat 0 0 {}
  | .vcack d a b => asmR 6 0 1 d.toNat a.toNat b.toNat 1 0 {}
  | .vcchk d => asmR 6 0 1 d.toNat 0 0 2 0 {}
  | .vcunsub d a b => asmR 6 0 1 d.toNat a.toNat b.toNat 3 0 {}
  | .cpy d a b => asmR 7 0 0 d.toNat a.toNat b.toNat 0 0 {}
  | .cpyt d a b => asmR 7 0 0 d.toNat a.toNat b.toNat 1 0 {}
  | .cpyl d a b => asmR 7 0 0 d.toNat a.toNat b.toNat 2 0 {}
  | .twany d a => asmR 7 0 1 d.toNat a.toNat 0 0 0 {}
  | .twall d a => asmR 7 0 1 d.toNat a.toNat 0 1 0 {}
  | .tffr d a => asmR 7 0 1 d.toNat a.toNat 0 2 0 {}
  | .tclr a => asmR 7 0 1 0 a.toNat 0 3 0 {}
  | .bscall d a imm => asmI 8 0 0 d.toNat a.toNat false imm 0
  | .bspart d a b => asmR 8 0 1 d.toNat a.toNat b.toNat 0 0 {}
  | .bsstat d a => asmR 8 0 1 d.toNat a.toNat 0 1 0 {}
  | .bsabort d a => asmR 8 0 1 d.toNat a.toNat 0 2 0 {}
  | .xfer d a b => asmR 9 0 0 d.toNat a.toNat b.toNat 0 0 {}
  | .xferCh d a b => asmR 9 0 0 d.toNat a.toNat b.toNat 1 0 {}
  | .coll d a b => asmR 9 0 0 d.toNat a.toNat b.toNat 2 0 {}
  | .mcst d a b => asmR 9 0 0 d.toNat a.toNat b.toNat 3 0 {}
  | .regwin d a => asmR 9 0 1 d.toNat a.toNat 0 0 0 {}
  | .revwin d a b => asmR 9 0 1 d.toNat a.toNat b.toNat 1 0 {}
  | .crr d idx => asmI 10 0 0 d.toNat 0 false (idx.setWidth 64) 0
  | .crw a idx => asmI 10 0 1 0 a.toNat false (idx.setWidth 64) 0
  | .crx d a idx => asmI 10 0 2 d.toNat a.toNat false (idx.setWidth 64) 0
  | .eret => [0xFB40, 0x1800]
  | .trap n => [0xFB40, .ofNat 16 (0x1900 + n.toNat)]
  | .hndset d a b => asmR 10 0 4 d.toNat a.toNat b.toNat 0 0 {}
  | .ctxsave d a b => asmR 10 0 4 d.toNat a.toNat b.toNat 1 0 {}
  | .ctxload d a b => asmR 10 0 4 d.toNat a.toNat b.toNat 2 0 {}
  | .tlbinv d a b => asmR 10 0 4 d.toNat a.toNat b.toNat 3 0 {}
  | .registerWrite _ _ => []
  | .asyncTrap _ => []
  | .fetchBlock _ => []
  | .fetchAge _ _ => []
  | .issueRotation _ => []
  | .rptIterationIssue _ => []
  | .tmmaComplete _ => []
  | .matrixResidueError _ => []
  | .matrixBankExchange _ => []
  | .bankHoldExpiry _ => []
  | .quantExpiry _ => []
  | .jobCardPop _ _ => []
  | .cardWaitWake _ => []
  | .dealChunk _ _ => []
  | .gangDeal _ _ => []
  | .chunkLoadComplete _ => []
  | .chunkEnd _ => []
  | .objectReply _ => []
  | .wakeSavedContext _ => []
  | .spillRingWake _ => []
  | .agentCntadd _ => []
  | .parentArrival _ => []
  | .parentCompleteWake _ => []
  | .cvLockRelease _ => []
  | .cvMovedAcquire _ => []
  | .lockAbandon _ => []
  | .waiterRemoval _ => []
  | .deadContextMessage _ => []
  | .settleAdd _ => []
  | .refirePush _ => []
  | .refireLost _ => []
  | .distributorVcack _ => []
  | .vcNotice _ => []
  | .homeStorePerform _ => []
  | .loadReply _ => []
  | .storeAck _ => []
  | .storeRefusal _ => []
  | .pageWalk _ _ _ => []
  | .mapcmdMap => []
  | .mapcmdUnmap => []
  | .mapcmdComplete => []
  | .meshCrcReplay _ => []
  | .meshBeacon _ => []
  | .copyBlockStart _ _ => []
  | .copyCommandComplete _ _ => []
  | .copyBlockComplete _ _ => []
  | .copyFault _ _ => []
  | .cpytRowWrite _ => []
  | .busCycle _ => []
  | .mossCallStart _ => []
  | .mossCallComplete _ => []
  | .budgetExpiry _ => []
  | .switchOut _ => []
  | .contextRestore _ _ => []
  | .gangSwitch _ => []
  | .gangDrainTimeout _ => []
  | .quadReset _ => []
  | .correctableError _ => []
  | .uncorrectableError _ => []
  | .dieFence _ => []
  | .masterElection => []
  | .fabricPacketArrival _ => []
  | .windowRevoked _ => []
  | .fabricAck _ => []
  | .fabricRefusal _ => []
  | .linkCrcFail _ => []
  | .linkReplayRequest _ _ => []
  | .linkSilenceTimeout _ => []
  | .linkBeacon _ => []
  | .endToEndTimeout _ => []
  | .purgeMarker _ => []
  | .purged _ => []
  | .purgeTimeout _ => []
  | .transferWaitWake _ => []
  | .transferComplete _ _ => []
  | .transferError _ _ => []
  | .multicastFork _ => []
  | .combineArrival _ => []
  | .collectiveAbort _ => []
  | .portRetrain _ => []
  | .hostBar4Read _ _ => []
  | .hostBar4Write _ _ => []
  | .hostBqpushNw _ => []
  | .hostCntadd _ => []
  | .hostCntwaitNw _ => []
  | .hostOquery _ => []
  | .partitionCreate _ => []
  | .partitionRemove _ => []
  | .jrnstFree _ _ => []
  | .faultaClear _ _ => []
  | .arrfltClear _ _ => []
  | .powerOnReset => []
  | .functionReady _ _ => []
  | .firmwareLoad => []
  | .controlStoreInstall => []
  | .attestReport => []
  | .freeze => []
  | .resume => []
  | .traceRecordEnable => []
  | .replayEnable => []
  | .replayDivergence => []
  | .thermalThrottle _ => []
  | .hostBar2Write _ _ => []
  | .linkPacketReceive _ _ => []
  | .quadResetComplete _ => []

/-- The halfwords of an opcode-table row's bits, with zeros after them: the table reads a group as one number whose most
significant halfword is the first (log entry 4). -/
def tableHalves (nbits w : Nat) : List Half :=
  if nbits ≤ 16 then [.ofNat 16 w, 0, 0, 0, 0] else [.ofNat 16 (w / 65536), .ofNat 16 w, 0, 0, 0]

/-- The instruction the decoder reads from the bits of an opcode-table row. -/
def decodeTableWord (nbits w : Nat) : Option Instr := (decode (tableHalves nbits w)).map (·.1)

end Sys2Proof
end

