-- ==== Sys2Proof/Config.lean ====
section
/-! DEFINITION. What is fixed for one Basja and what the manual leaves open. The open values are opaque
constants: nothing in Lean can evaluate them, so every statement holds whatever they are. -/

namespace Sys2Proof.Config

/-- Slices of the device (R2). -/
def sliceCount : Nat := 192

/-- Installed capacity of device memory in bytes: 432 GB, GB counting powers of 1,000 (R2, R7, R215). -/
def capacity : Nat := 432000000000

/-- An open value of `w` bits; `n` is the state's counter of open values taken so far, so that each taking is a
fresh one. -/
opaque freeValue (w n : Nat) : BitVec w

/-- Whether microword `word` of the vendor microprogram of entry `entry` ends at a row boundary: the firmware's
choice within the bound of 3 (R293). -/
opaque rowBoundary (entry word : Nat) : Bool

/-- Whether the slices' firmware issues SCALEADD in the pattern that R306 shows of one firmware (log entry 133). -/
opaque rowByRow : Bool

/-- The bytes of a firmware image's body, by its 128-byte header, whose places R366 does not give. -/
opaque imageBodyLength (header : List Byte) : Nat

/-- The kind that a firmware image's header names (R366). -/
opaque headerKind (header : List Byte) : Nat

/-- The bytes of one microword in an extension image's body (R367). -/
opaque microwordBytes : Nat
/-- The bytes of the entries 16 to 63 in an extension image's body. -/
opaque tableBytes : Nat

/-- The valid bits that a kind-3 image holds for entries 16 to 63 (R367). -/
opaque extensionValid (image : List Byte) : BitVec 64

/-- The use mask of an extension entry: X, Y, Z, K and the flags byte in bits 0 to 4 (R292), the others reserved. -/
opaque extensionUses (image : List Byte) (entry : Nat) : Byte

/-- The overlap mask of an extension entry: Z on X, Z on Y, and Z a single flag row in bits 0 to 2 (R292), the others reserved. -/
opaque extensionOverlap (image : List Byte) (entry : Nat) : Byte

/-- The start word of a vendor entry, and a microword of the vendor's part of the control store: the vendor image's matter (R292). -/
opaque vendorStart (entry : Nat) : BitVec 7
/-- The bits of a microword of the vendor's part. -/
opaque vendorMicroword (word : Nat) : List Byte

/-- The start word of an extension entry, and a microword of the image (R292, R367). -/
opaque extensionStart (image : List Byte) (entry : Nat) : Nat
/-- The bits of a microword of the image. -/
opaque extensionMicroword (image : List Byte) (word : Nat) : List Byte

/-- The number of microwords that an extension entry issues for an argument block: the image's matter. -/
opaque extensionWords (image : List Byte) (entry block : Nat) : Nat

/-- The public key under which a firmware image is signed, and the SHA-384 value of it held in fuses (R366). -/
opaque signingKey (image : List Byte) : Nat × Nat
/-- The fuses' value. -/
opaque fusedKeyHash : List Byte

/-- The firmware images that the boot ROM finds, in the order in which it loads them (R364, R366). -/
opaque bootImages : List (List Byte)

/-- A function of the capability list starts only once another is READY (R364): the spec does not name which depend on which. -/
opaque dependsOn (function other : Nat) : Bool

/-- The firmware's version (R365). -/
opaque firmwareVersion : Word

/-- The beats of a fabric link's receive buffer for a class (R222, R340). -/
opaque fabricSlots : BitVec 16

/-- The slots of a mesh link's receive buffer (R222). -/
opaque meshSlots : BitVec 16

/-- The version byte of a capability entry (R365). -/
opaque capabilityVersion (id : Nat) : Byte

/-- What the host link has trained to: its number of lanes halved or not, and how many generations below 7 (R357). -/
opaque hostHalved : Bool
/-- The generations below 7. -/
opaque hostBelow : Nat

/-- The lanes of the host link: 16, or 8 where it has trained to 8 (R2, R357). -/
def hostLanes : Nat := if hostHalved then 8 else 16
/-- The generation of the host link: 7, or 6 or 5 where it has trained lower (R2, R357). -/
def hostGeneration : Nat := 7 - hostBelow % 3

/-- The 4 KiB pages of device memory that hold the identity certificate and the attestation report (R365, R368). -/
opaque certificatePage : Nat
/-- The page of the report. -/
opaque reportPage : Nat

/-- The private identity key, derived from a fused secret (R368). -/
opaque identityKey : Nat

/-- Whether a waiter id of another device belongs to a job recorded there, and whether a packet of a class from there does, by
its source endpoint and SEQ (R370): neither says so. -/
opaque requesterRecorded (device id : Nat) : Bool
/-- Whether a packet that answers nothing belongs to a job recorded at its source. -/
opaque packetRecorded (device sep cls seq : Nat) : Bool

/-- The PORT hash of the source core and the destination device of R337. -/
opaque portHash (core dst : Nat) : BitVec 4

/-- What QUANT reads of a running quantum at the n-th open value taken (R147, R314): cycles are not counted, so how many
of the quantum's cycles are left is open, up to the quantum. -/
opaque quantRemaining (n quantum : Nat) : Nat

end Sys2Proof.Config
end

