-- ==== Sys2Proof/Machine/State.lean ====
section
/-! DEFINITION. The state of one Basja as plain data, the reasons a step can stop, and the state after reset.
A home address is a natural number: bits [45:0] of the global address that names the byte's home (R206, R236), with
the physical offset in region 0. Cores are numbered die * 1024 + y * 32 + x, frames core * 4 + frame, device slices
48 * die + slice (R138). -/

namespace Sys2Proof.Machine

/-- The value of a vector register: 256 bytes, byte 0 first (R57). -/
abbrev VVal := Vector Byte 256
/-- The value of a tile register: 32 rows of 64 bytes (R114). -/
abbrev TileVal := Vector Byte 2048
/-- The value of an accumulator: element (i, j) at 32 i + j (R114). -/
abbrev AccVal := Vector (BitVec 32) 1024

/-- Every memory of the device: bytes by home address, the addresses rising, none listed with the value that an
unlisted address reads as. -/
abbrev Memory := List Host.Cell

/-- What an address that nothing has written reads as: the capacity 1,024 and the slot size code 3 of the
machine-check queue at control offset 0x06_0040 (R328), and 0 everywhere else (log entry 2). -/
def resetByte (a : Nat) : Byte :=
  if a = 3 * 2 ^ 42 + 0x060041 then 4 else if a = 3 * 2 ^ 42 + 0x060042 then 3 else 0

/-- Why a step stops. -/
inductive Fault where
  /-- Raised by `step` when the device has fenced itself and stopped (R334): nothing more happens. Safe. -/
  | deviceStopped
  deriving DecidableEq, Repr

/-- Why an instruction has no meaning here. -/
inductive Refusal where
  /-- Raised by an arm of `exec` whose instruction has no meaning yet. Safe. -/
  | notModelled (mnemonic : String)
  deriving DecidableEq, Repr

/-- The states of a frame (R130). -/
inductive FrameStatus where
  | empty | loading | ready | issuing | parked | swap
  deriving DecidableEq, Repr

/-- One of the 16 entries of a frame's journal (R317), with the home and the size of the access (R238); the model's own stamp
orders it against FENCEs, releases and copies (R241, R243, R249). -/
structure JEntry where
  busy : Bool := false
  refused : Bool := false
  addr : Word := 0
  data : Word := 0
  kind : BitVec 2 := 0
  sub  : BitVec 2 := 0
  home : Option Nat := none
  size : Nat := 8
  stamp : Nat := 0
  deriving DecidableEq, Repr

/-- Where an access lands once the core's checks have passed (R255). -/
inductive Place where
  | mem (pa kind : Nat)
  | pad (l : Nat)
  | core (key : Nat)
  | bank (key : Nat)
  | ctl (off : Nat)
  | remote
  deriving DecidableEq, Repr

/-- What a load of the core's own scratchpad fills from the bytes that it reads: a scalar register; elements of a vector
register, each with the access that brings it and its place in a t6 group; a tile by rows or, transposed, by columns; an
accumulator (R81, R109, R115, R120). -/
inductive PadDest where
  | scalar (d : SReg) (n : Nat) (signed : Bool)
  | vector (d : VReg) (f : Fmt) (es : List (Nat × (Nat × Nat)))
  | tile (d : TReg) (f : Fmt) (transposed : Bool)
  | acc (d : AReg)
  deriving DecidableEq, Repr

/-- A part of a scratchpad load, within one 32-byte granule and so read at one instant: the address that its access names, its
home, its size, and what it has read (R224). -/
structure PadPart where
  ea : Nat
  key : Nat
  n : Nat
  got : Option (List Byte) := none
  deriving DecidableEq, Repr

/-- What a retired group still has to perform (R224, R236, R240): a load of a place on this device; a load of the core's own
scratchpad, part by part; or one part of a store to it, each byte with the mask of the bits that it writes. -/
inductive LateWhat where
  | load (ea : Word) (place : Place) (d : SReg) (n : Nat) (signed : Bool) (hint : Hint) (inS : Bool)
  | pad (dst : PadDest) (parts : List PadPart)
  | store (key : Nat) (bytes : List (Byte × Byte))
  deriving DecidableEq, Repr

/-- What a FENCE holds later accesses until: the loads, the stores, or both that were issued before its stamp, the stores of
the whole core where its scope is quad or wider (R241). -/
structure FenceMark where
  stamp : Nat
  wide : Bool
  loads : Bool
  stores : Bool
  deriving DecidableEq, Repr

/-- A group captured by the repeat sequencer, with the operands read at capture and its staggers (R20, R21). -/
structure Captured where
  instr : Instr
  pc   : Word
  len  : Nat
  base : Half
  sa   : Word
  sb   : Word
  scla : Word
  sclb : Word
  stagger : Vector (Option Word) 6
  deriving DecidableEq, Repr

/-- A capture in progress: RPT has issued and groups are being captured (R124). -/
structure Capture where
  need  : Nat
  count : Nat
  body  : List Captured
  stagger : Vector (Option Word) 6
  fields : List Nat
  fieldPcs : List (Nat × (Word × (Nat × Half)))
  deriving DecidableEq, Repr

/-- The repeat sequencer of a frame: RPTST and the captured body (R13, R20 to R24). -/
structure Repetition where
  active : Bool := false
  trapv  : Bool := false
  iter   : Nat := 0
  slot   : Nat := 0
  cont   : BitVec 32 := 0
  count  : Nat := 0
  body   : List Captured := []
  endPc  : Word := 0
  nextIter : Nat := 0
  nextSlot : Nat := 0
  deriving DecidableEq, Repr

/-- An access of a frame that its group has left to be performed, in program order by its stamp (R240), with what a precise
trap of it records: the PC and the length of its group and, of a captured one, the sequencer at its place (R23). -/
structure Late where
  stamp : Nat
  what : LateWhat
  pc : Word := 0
  len : Nat := 1
  rep : Option Repetition := none
  deriving DecidableEq, Repr

/-- The notice state VCNOT and the watch behind it (R191). -/
structure Watch where
  cell   : Option Word := none
  ver    : BitVec 16 := 0
  latest : BitVec 16 := 0
  stop   : Bool := false
  final  : Bool := false
  deriving DecidableEq, Repr

/-- Where a reply's results go (R165, R167): the status to S[d]; with the value to S[d+1]; with the image or the
payload to V[b]; or, raw, the value to S[d] and the payload's word to S[d+1], never raising OBJSTAT (R300, R324). -/
inductive ReplyKind where
  | plain | withValue | query | pop | raw
  deriving DecidableEq, Repr

/-- Who stands in a wait list (R159): a context, a child barrier, a card, a transfer's wait counter, a gang's drain
counter (with job 0, an agent that works for no job or waits for nothing), a requester on another device, which may be such an entry there, or the push of a refire card (R193). -/
inductive Waiter where
  | ctx (id : Nat)
  | child (cell : Nat)
  | card (job : Nat)
  | xfer (core block : Nat)
  | drain (job : Nat)
  | remote (src sep tag id : Nat) (internal : Bool)
  | refire (cell version : Nat)
  deriving DecidableEq, Repr

/-- Why a waiter waits; the argument is its threshold, phase or ticket. -/
inductive WaitKind where
  | counter | counterZero | arrival | phase | deferred (waits : Bool) | lock | push | pop | condition | producer
  deriving DecidableEq, Repr

/-- An entry of a wait list, in the RAM or in the spill ring (R161, R162); of a waiter that a condition moved to its
lock, the lock's address as the condition holds it (R182); `coll` marks an arrival with a contribution (R350). -/
structure Wait where
  cell : Nat
  kind : WaitKind
  who  : Waiter
  arg  : Nat := 0
  d : SReg := 0
  vd : VReg := 0
  rk : ReplyKind := .withValue
  addr : Word := 0
  lock : Word := 0
  payload : List Byte := []
  coll : Bool := false
  spilled : Bool := false
  deriving DecidableEq, Repr

/-- What a PARKED frame waits for (R130, R160, R284); `cv` marks a CVWAIT (R183). -/
inductive ParkKind where
  | none
  | request (home : Nat) (cell : Word) (cv : Bool)
  | tagAny (mask : Word) (d : SReg)
  | tagAll (mask : Word) (d : SReg)
  | load (addr : Word) (acquire : Bool)
  | slice
  deriving DecidableEq, Repr

/-- Which B operand a matrix multiply reads (R116). -/
inductive MmaKind where
  | plain | bt | sp
  deriving DecidableEq, Repr

/-- A started matrix multiply with what it sampled and its accumulator shadow (R117, R118); for a captured one the
sequencer at its place (R23), and whether it executes again after a restore (R318). -/
structure Tmma where
  frame : Nat
  kind : MmaKind
  d : AReg
  a : TReg
  b : TReg
  fmta : BitVec 4
  fmtb : BitVec 4
  scaled : Bool
  rm : BitVec 3
  fz : Bool
  scaleA : List (BitVec 32)
  scaleB : List (BitVec 32)
  block : List Byte
  shadow : AccVal
  errors : Nat := 0
  pc : Word := 0
  len : Nat := 0
  inRep : Bool := false
  rep : Repetition := {}
  replayed : Bool := false
  deriving DecidableEq, Repr

/-- One context frame: the registers of R10, its control registers (R314) and what the device keeps for it; `seen` names by their
stamps the posted stores of other frames of its core that it has read in the L1 before their homes performed them (R238,
R239); in an EMPTY frame `sliced` names the context that the distributor has switched out of it (R147). -/
structure Frame where
  status : FrameStatus := .empty
  pc : Word := 0
  s : Vector Word 32 := Vector.replicate 32 0
  p : Vector Word 8 := Vector.replicate 8 0
  v : Vector VVal 32 := Vector.replicate 32 (Vector.replicate 256 0)
  fcsr : Word := 0
  fmta : Word := 6
  fmtb : Word := 6
  scla : Word := 0
  sclb : Word := 0
  tags : Word := 0
  tagerr : Word := 0
  tagsPending : Word := 0
  pwb : Vector Word 4 := Vector.replicate 4 0
  pws : Vector Word 4 := Vector.replicate 4 0
  expw : Vector Word 4 := Vector.replicate 4 0
  windowsOpen : Bool := true
  quantum : BitVec 32 := 0
  drainc : Word := 0
  watch : Watch := {}
  faulta : Word := 0
  faultb : Word := 0
  arrflt : Word := 0
  trapc : Word := 0
  trappc : Word := 0
  trapval : Word := 0
  hndbase : Word := 0
  hnddata : Word := 0
  tscr0 : Word := 0
  tscr1 : Word := 0
  journal : Vector JEntry 16 := Vector.replicate 16 {}
  pendJournal : List (Nat × BitVec 8) := []
  pendCopy : Option Word := none
  pendArray : Option Word := none
  pendFabric : List (BitVec 8 × Word) := []
  locks : List Word := []
  parkedOn : ParkKind := .none
  parkPc : Word := 0
  parkLen : Nat := 0
  parkD : SReg := 0
  parkVd : VReg := 0
  parkKind : ReplyKind := .plain
  handle : BitVec 20 := 0
  part : BitVec 6 := 0
  level : BitVec 6 := 0
  asid : BitVec 16 := 0
  cls : BitVec 2 := 2
  rank : BitVec 32 := 0
  job : Option Nat := none
  first : Nat := 0
  records : Nat := 0
  layoutJob : Option Nat := none
  sliced : Option Nat := none
  ownedMatrix : Bool := false
  capture : Option Capture := none
  rep : Repetition := {}
  ras : List Word := []
  pins : Nat := 0
  poisonS : BitVec 32 := 0
  poisonP : BitVec 8 := 0
  poisonV : BitVec 32 := 0
  stamp : Nat := 0
  fenceLoads : List FenceMark := []
  fenceStores : List FenceMark := []
  fenceClear : Bool := false
  late : List Late := []
  seen : List Nat := []
  tagLines : List (Nat × List Nat) := []
  stopping : Option (BitVec 8) := none
  stopFor : List Wait := []
  replay : Option Tmma := none
  deriving DecidableEq, Repr

/-- A line of a core's L1: 32 bytes of the issuing device's region 0 by line number (R217). -/
structure L1Line where
  line : Nat
  data : List Byte
  victimNext : Bool := false
  poisoned : Bool := false
  deriving DecidableEq, Repr

/-- A cached translation (R232): ASID, page, size in bits, and the leaf entry of R230. -/
structure TlbEntry where
  asid : BitVec 16
  vpage : Nat
  bits : Nat
  leaf : Word
  deriving DecidableEq, Repr

/-- One command in the copy engine's FIFO with the records it names (R273, R275, R347, R349). -/
structure Cmd where
  raw  : Nat
  recA : Nat := 0
  recB : Nat := 0
  addrA : Nat := 0
  addrB : Nat := 0
  group : Nat := 0
  deriving DecidableEq, Repr

/-- The kinds of block a frame pushes to the copy engine. -/
inductive BlockKind where
  | cpy | cpyt | cpyl | xfer | xferCh | mcst
  deriving DecidableEq, Repr

/-- One end of a unit that a copy engine moves: nothing (a clipped destination), bytes that the engine supplies, homes on this
device, a place on another device, or a refusal with its cause and its address, by the engine's own checks or by the home. -/
inductive Side where
  | clipped
  | value (bs : List Byte)
  | keys (ks : List Nat)
  | away (a : Word) (n : Nat)
  | refused (own : Bool) (cause : Nat) (a : Word)
  deriving DecidableEq, Repr

/-- A unit: its first element or byte, its ends, the global addresses at which they stand, and for t6 the places in the groups
(R265). -/
structure CopyUnit where
  elem : Nat
  src : Side
  dst : Side
  addrs : List Word := []
  six : Option (Nat × Nat) := none
  deriving DecidableEq, Repr

/-- A block in the copy engine's FIFO (R274 to R283): the cores of its gang job's ranks (R271), the stamp of its push (R249),
and of its running command the units moved, those read and not yet written, which of them hold poison (R327), those checked ahead
of units that have been moved, the elements written, and the refusals that have come back (R278, R282, R343); of a transfer how many packets have been
sent, whether EARLY has given its add (R348) and the members of a multicast that have received theirs (R349). -/
structure Block where
  id : Nat
  kind : BlockKind
  handle : BitVec 20
  frame : Nat
  part : BitVec 6
  asid : BitVec 16
  user : Bool
  job : Option Nat
  addr : Nat
  tag : BitVec 6
  te : Bool
  ordf : Bool
  counter : Word
  stamp : Nat := 0
  ranks : List Nat := []
  cmds : List Cmd
  next : Nat := 0
  started : Bool := false
  waiting : Bool := false
  sent : Bool := false
  bad : List Nat := []
  lines : List Nat := []
  failed : Option (BitVec 8 × Word) := none
  failElem : Nat := 0
  failPart : Bool := false
  moved : List Nat := []
  wrote : List Nat := []
  held : List (Nat × List Byte) := []
  tainted : List Nat := []
  checked : List (Nat × CopyUnit) := []
  refusals : List (Nat × (Nat × Word)) := []
  pos : Nat := 0
  early : Bool := false
  added : List Nat := []
  orphan : Bool := false
  deriving DecidableEq, Repr

/-- What the four frames of a core share (R11, R133, R134, R217, R232, R277); `used` says that the bank's owner has had a turn of its
own since it got the bank (R134). -/
structure Core where
  tiles : Vector TileVal 8 := Vector.replicate 8 (Vector.replicate 2048 0)
  accs : Vector AccVal 4 := Vector.replicate 4 (Vector.replicate 1024 0)
  poisonT : BitVec 8 := 0
  poisonA : BitVec 4 := 0
  owner : Option (BitVec 2) := none
  hold : Bool := false
  used : Bool := false
  tmma : Option Tmma := none
  swapQueue : List (BitVec 2) := []
  issuing : Option (BitVec 2) := none
  lastFrame : BitVec 2 := 3
  l1 : List L1Line := []
  tlb : List TlbEntry := []
  fifo : List Block := []
  fetchBuffer : List (Nat × List Byte) := []
  deriving DecidableEq, Repr

/-- What a quad's cores share: the instruction cache, 32-byte lines by physical line number (R136, R253), the aged requests
by core and fetch block (R137), the second-level translations (R232), and the unions of flags that stood before, the newest first: when
a core issued, which is then named, and before anything else that may have changed them (R72). -/
structure Quad where
  icache : List (Nat × List Byte) := []
  badLines : List Nat := []
  aged : List (Nat × Nat) := []
  flagHist : List (Word × Option Nat) := []
  l2tlb : List TlbEntry := []
  resetting : Bool := false
  deriving DecidableEq, Repr

/-- The modes of a slice bank (R213). -/
inductive BankMode where
  | cache | scratch | compute
  deriving DecidableEq, Repr

/-- A moss-mode call (R290, R291): the argument block as copied at issue. -/
structure Call where
  waiter : Nat
  frame : Nat
  part : BitVec 6
  asid : BitVec 16
  entry : BitVec 6
  block : Nat
  orphan : Bool := false
  deriving DecidableEq, Repr

/-- A row write of a CPYT held at a slice (R279): the block it belongs to, its place, and its lanes with their bits. -/
structure RowWrite where
  core : Nat
  block : Nat
  bank : Nat
  row : Nat
  lanes : List (Nat × Bool)
  deriving DecidableEq, Repr

/-- The running call with the sequencer's counters (R293, R294, R297), the operand rows it started from, and the row writes that
have reached them since (R250). -/
structure Run where
  call : Call
  words : Nat
  issued : Nat := 0
  sinceBoundary : Nat := 0
  suspended : Bool := false
  abort : Option Nat := none
  input : Memory := []
  writes : List RowWrite := []
  deriving DecidableEq, Repr

/-- The latches of a compute bank's lanes (R288), lane 0 in the lowest bit; N by its bits. -/
structure Latches where
  a : BitVec 4096 := 0
  b : BitVec 4096 := 0
  c : BitVec 4096 := 0
  f : BitVec 4096 := 0
  v : BitVec 4096 := 0
  n : Vector (BitVec 4096) 6 := Vector.replicate 6 0
  deriving DecidableEq, Repr

/-- What the entry table holds of an extension entry beside its valid bit: its start word, its use mask and its overlap mask
(R292). -/
structure TableEntry where
  start : BitVec 8
  uses : BitVec 5
  overlap : BitVec 3
  deriving DecidableEq, Repr

/-- One cache slice: bank modes and owners (R213, R285), the call queue and sequencer, the command bus with the requests that
wait for it and those served in this suspension (R294), the microprogram counter and the latches by bank (R288), the entry table
and the control store above the vendor's part (R292, R367), and how many entries its spill ring has taken (R162). -/
structure Slice where
  mode : Vector BankMode 16 := Vector.replicate 16 .cache
  bankPart : Vector (BitVec 6) 16 := Vector.replicate 16 0
  queue : List Call := []
  input : List Call := []
  run : Option Run := none
  served : Nat := 0
  waiting : Nat := 0
  window : Nat := 0
  mpc : BitVec 8 := 0
  latches : Tbl Latches := []
  rows : List RowWrite := []
  overflowErr : Bool := false
  ringTail : Nat := 0
  walkCache : List (Nat × Word) := []
  extValid : BitVec 64 := 0
  extImage : List Byte := []
  table : Tbl TableEntry := []
  store : Tbl (List Byte) := []
  deriving DecidableEq, Repr

/-- What a page-6 step does to its requester's watch (R188, R191). -/
inductive WatchMove where
  | set (cell : Word) (version : BitVec 16) (stop : Bool)
  | raise (cell : Word) (version : BitVec 16)
  | clear (cell : Word)
  deriving DecidableEq, Repr

/-- A reply or wake on its way (R164, R167), with the cell that it comes from and its step's position in the cell's order (R157). -/
structure Reply where
  who : Waiter
  kind : ReplyKind
  d : SReg := 0
  vd : VReg := 0
  status : BitVec 8 := 0
  value : Word := 0
  payload : List Byte := []
  cell : Word := 0
  home : Nat := 0
  wake : Bool := false
  grant : Option Word := none
  unlock : Option Word := none
  watch : Option WatchMove := none
  trap : Option (BitVec 8 × Word) := none
  position : Nat := 0
  deriving DecidableEq, Repr

/-- A posted access on its way to its home (R169, R244, R261), with its hint (R218) and, for a release, whether it waits for
the whole core's stores (R243, R247). -/
structure Posted where
  frame : Nat := 0
  handle : BitVec 20 := 0
  entry : Nat := 0
  home : Nat := 0
  addr : Word
  size : Nat := 8
  data : Word := 0
  kind : BitVec 2 := 0
  sub : BitVec 2 := 0
  part : BitVec 6 := 0
  asid : BitVec 16 := 0
  remote : Bool := false
  hint : Hint := .normal
  inL1 : Bool := false
  release : Option Bool := none
  stamp : Nat := 0
  deriving DecidableEq, Repr

/-- Messages in flight inside the device, each delivered by the event row named beside it. -/
inductive Msg where
  /-- HOME_STORE_PERFORM -/
  | posted (m : Posted)
  /-- STORE_ACK -/
  | ack (frame : Nat) (handle : BitVec 20) (entry : Nat)
  /-- STORE_REFUSAL -/
  | refusal (frame : Nat) (handle : BitVec 20) (entry : Nat) (cause : BitVec 8)
  /-- OBJECT_REPLY, WAKE_SAVED_CONTEXT, DEAD_CONTEXT_MESSAGE -/
  | reply (r : Reply)
  /-- SPILL_RING_WAKE: the wake of an entry of the spill ring of a cell -/
  | spilled (home : Nat) (wake : Msg)
  /-- LOAD_REPLY: a remote or quad access's value; `sub` 0 a load, 1 an atomic -/
  | load (frame : Nat) (handle : BitVec 20) (d : SReg) (value : Word) (trap : Option (BitVec 8 × Word))
  /-- AGENT_CNTADD: an addend with error marks (R159), for a moss-mode call the waiter id that issued it, the endpoint that
  sends it (R338), and the job that it is for, 0 for none -/
  | agentAdd (cell : Word) (asid : BitVec 16) (x : Word) (marks : Nat) (call : Option Nat) (sep job : Nat)
  /-- PARENT_ARRIVAL: of a collective with its accumulator and its OP, FMT and N (R350) -/
  | parentArrival (child : Nat) (parent : Word) (asid : BitVec 16) (data : List Byte)
      (shape : Option (Nat × (Nat × Nat)))
  /-- PARENT_COMPLETE_WAKE: a status, and for a collective the result (R351) -/
  | parentWake (child : Nat) (status : BitVec 8) (data : List Byte) (home : Option Nat)
  /-- CV_LOCK_RELEASE: under the condition's creator ASID as it then was (R373) -/
  | cvRelease (cell : Nat) (lock : Word) (asid : BitVec 16) (who : Nat)
  /-- CV_LOCK_RELEASE: the release at another device failed -/
  | cvFailed (cell : Nat) (who : Nat)
  /-- WAITER_REMOVAL: an item that an OKILL sent to another device is done -/
  | cleaned (handle : Nat) (count : Nat)
  /-- CV_MOVED_ACQUIRE: from the condition whose list the waiter has left -/
  | cvAcquire (cell : Nat) (lock : Word) (asid : BitVec 16) (w : Wait)
  /-- LOCK_ABANDON; `counted` when an OKILL sent it (R183) -/
  | abandon (lock : Word) (who : Nat) (counted : Bool)
  /-- WAITER_REMOVAL -/
  | removal (cell : Word) (who : Nat)
  /-- SETTLE_ADD -/
  | settle (cell : Nat) (counter : Word) (asid : BitVec 16)
  /-- REFIRE_PUSH: `asked` and `got` are for a card on another device (R373) -/
  | refire (cell : Nat) (version : Nat) (card queue : Word) (asid : BitVec 16) (asked : Bool) (got : List (Nat × List Byte))
  /-- REFIRE_LOST -/
  | refireLost (cell : Nat) (version : Nat)
  /-- DISTRIBUTOR_VCACK; without an ASID the cell is named by its home -/
  | vcack (cell : Word) (asid : Option (BitVec 16)) (version : Nat)
  /-- VC_NOTICE -/
  | notice (cell : Nat) (version : BitVec 16) (stop final : Bool)
  /-- CHUNK_END -/
  | chunkEnd (job : Nat) (first records : Nat) (abandoned : Bool)
  /-- CARD_WAIT_WAKE -/
  | cardWake (job : Nat) (status : BitVec 8) (home : Option Nat)
  /-- TRANSFER_WAIT_WAKE -/
  | xferWake (core block : Nat) (status : BitVec 8) (home : Option Nat)
  /-- An agent's counter wait, for a threshold or for zero, that a replay holds before its cell (R371). -/
  | agentWait (who : Waiter) (a : Word) (asid : BitVec 16) (threshold : Option Word)
  /-- COMBINE_ARRIVAL: an arrival whose contribution (the payload) reaches a barrier's gateway, with the OP, FMT and N of a child's
  (R350) and the packets of another device that brought it, each with the window that admitted it (R345) -/
  | combine (w : Wait) (shape : Option (Nat × (Nat × Nat))) (packets : List (Packet × Nat))
  /-- COLLECTIVE_ABORT -/
  | abort (cell : Nat)
  /-- HOME_STORE_PERFORM: an access of another device admitted by a registration window (R345) -/
  | arrived (packet : Packet) (window : Nat)
  /-- MULTICAST_FORK: a multicast packet that a gateway holds for the branches that have not had their copy; `origin` is, on the
  issuing device, the core and the id of its block and the packet's place in the transfer -/
  | fork (packet : Packet) (origin : Option (Nat × (Nat × Nat))) (gateway : Nat)
  /-- PURGED: a multicast packet whose branch a failed port has cut off, held by the gateway above until its members have been
  purged (R349) -/
  | branch (packet : Packet) (gateway : Nat)
  deriving DecidableEq, Repr

/-- A level of a partition record (R361). -/
structure Level where
  quantum : BitVec 32 := 0
  asid : BitVec 16 := 0
  capacity : BitVec 16 := 0
  deriving DecidableEq, Repr

/-- A partition record (R361). -/
structure Partition where
  live : Bool := false
  err : Bool := false
  weight : BitVec 8 := 0
  guarantee : BitVec 14 := 0
  ceiling : BitVec 14 := 0
  residency : BitVec 16 := 1024
  bankQuota : BitVec 12 := 0
  hndbase : Word := 0
  hnddata : Word := 0
  refused : Word := 0
  qstore : Word := 0
  levels : Vector Level 48 := Vector.replicate 48 {}
  deriving DecidableEq, Repr

/-- Where a popped card stands (R139, R142, R143). -/
inductive JobStatus where
  | checking | waiting | woken | active | ended
  deriving DecidableEq, Repr

/-- A popped job card and how far it has been dealt (R139 to R145, R194): the counters on other devices that it still has
to check, the quad of a job of policy 3, the cell and version whose refire pushed it (R193), the stage of its gang's
switch with whether real-time work started it (R323), and its place among the jobs that have entered active sets (R142). -/
structure Job where
  id : Nat
  part : BitVec 6
  level : BitVec 6
  asid : BitVec 16
  card : List Byte
  windows : List Word
  layouts : List Byte
  eligible : Nat
  status : JobStatus
  dealt : Nat := 0
  redeal : List (Nat × Nat) := []
  running : Nat := 0
  abandoned : Nat := 0
  marks : Nat := 0
  dropped : Bool := false
  gangFrames : List Nat := []
  rankCores : List Nat := []
  checks : Nat := 0
  checkFailed : Bool := false
  quad : Option Nat := none
  origin : Option (Nat × Nat) := none
  drain : Option Nat := none
  drainRt : Bool := false
  order : Nat := 0
  deriving DecidableEq, Repr

/-- The states of a context-table record (R320). -/
inductive CtxState where
  | free | resident | saved | runnable | dead
  deriving DecidableEq, Repr

/-- The STATE word of a record of the context table and what the device keeps of a saved context (R320, R322); while an
OKILL cleans up, its request with the items counted so far and how many of its messages are out (R183). -/
structure Ctx where
  state : CtxState := .free
  held : Bool := false
  parked : Bool := false
  matrix : Bool := false
  rept : Bool := false
  inh : Bool := false
  swcause : BitVec 8 := 0
  cleaned : Bool := false
  frame : Nat := 0
  image : Option Frame := none
  tmma : Option Tmma := none
  cleanFor : Option Wait := none
  cleanPending : Nat := 0
  order : Nat := 0
  deriving DecidableEq, Repr

/-- A 256-byte line held by its home slice (R212): its way, which is a bank, which sectors are valid and which dirty, what
DRAM holds of the dirty ones, its pin and its place in replacement (the list of lines runs from the most to the least
recently used). -/
structure SliceLine where
  line : Nat
  way : Nat := 0
  valid : BitVec 8 := 0
  dirty : BitVec 8 := 0
  dram : List (Nat × List Byte) := []
  keep : Bool := false
  pin : Option Nat := none
  deriving DecidableEq, Repr

/-- A registration window's state (R345). -/
inductive WinState where
  | active | revoking | revoked
  deriving DecidableEq, Repr

/-- A registration window (R345). -/
structure Window where
  base : Nat
  size : Nat
  asid : BitVec 16
  perm : BitVec 4
  srclo : Nat
  srchi : Nat
  part : BitVec 6
  state : WinState
  inflight : Nat := 0
  counter : Word := 0
  cntAsid : BitVec 16 := 0
  deriving DecidableEq, Repr

/-- The sending side of a flow at its ingress gateway (R341, R342). -/
structure FlowOut where
  dst : Nat
  cls : Nat
  gateway : Nat
  nextSeq : BitVec 11 := 0
  unacked : List Packet := []
  queued : List Packet := []
  failedPorts : List Nat := []
  marked : List Nat := []
  purging : Bool := false
  unreachable : Bool := false
  deriving DecidableEq, Repr

/-- The receiving side of a flow at its flow endpoint (R341). -/
structure FlowIn where
  src : Nat
  cls : Nat
  gateway : Nat
  expect : BitVec 11 := 0
  held : List Packet := []
  seen : List (BitVec 11) := []
  deriving DecidableEq, Repr

/-- A fabric port's link state (R340): sending, the last LSEQ, the replay buffer, the replays of its first packet and the packets
that wait for slots, with the beats sent and, as last heard, freed by class; receiving, LACK, whether packets are discarded until
a replay and how many replays have failed, with the beats freed and those reported. -/
structure Port where
  up : Bool := false
  failed : Bool := false
  sendSeq : BitVec 16 := 0
  lack : BitVec 16 := 0
  discarding : Bool := false
  replays : Nat := 0
  replayBuffer : List (BitVec 16 × Packet) := []
  outQueue : List Packet := []
  freed : Vector (BitVec 16) 4 := Vector.replicate 4 0
  reported : Vector (BitVec 16) 4 := Vector.replicate 4 0
  waiting : List Packet := []
  sentBeats : Vector (BitVec 16) 4 := Vector.replicate 4 0
  theirs : Vector (BitVec 16) 4 := Vector.replicate 4 0
  tries : Nat := 0
  deriving DecidableEq, Repr

/-- A flit as a replay buffer keeps it (R222): the nodes of its packet, its place in the packet, and the report that it carries for
the other direction. The bytes that it stands for are those of the access. -/
structure Flit where
  src : Nat
  dst : Nat
  place : Nat
  report : BitVec 16
  deriving DecidableEq, Repr

/-- A mesh link's slot accounting (R222): the sender's cumulative count of flits, the receiver's of slots that it has freed,
the count of those that the sender last heard of, the flit in its replay buffer, and the flits replayed. -/
structure Link where
  sent : BitVec 16 := 0
  freed : BitVec 16 := 0
  reported : BitVec 16 := 0
  buffer : Option Flit := none
  replayed : Nat := 0
  deriving DecidableEq, Repr

/-- A slot of the host request window (R358). -/
structure HostSlot where
  bytes : List (Nat × Byte) := []
  busy : Bool := false
  order : Nat := 0
  deriving DecidableEq, Repr

/-- What the device has sent to the host: replies into host memory, MSI-X messages, read completions (R357 to R360). -/
inductive HostOut where
  | reply (addr : Word) (bytes : List Byte)
  | msix (vector : Nat)
  | read (bytes : List Byte)
  | unsupported
  | aerNonFatal
  deriving DecidableEq, Repr

/-- An object request that has left for another device: who asked and where the answer goes; the address it named, for a
moved waiter the lock's, and whether it may park (R167, R182, R183). -/
structure RemoteReq where
  who : Waiter
  kind : ReplyKind := .plain
  d : SReg := 0
  vd : VReg := 0
  addr : Word := 0
  lock : Word := 0
  parks : Bool := false
  deriving DecidableEq, Repr

/-- What a packet that has left for another device was sent for (R343, R344, R348). -/
inductive RemoteWhat where
  | load (frame : Nat) (handle : BitVec 20) (d : SReg) (size : Nat) (signed : Bool) (amo : Option Nat)
  | posted (frame : Nat) (handle : BitVec 20) (entry : Nat)
  | object (q : RemoteReq)
  | data (core block elem : Nat)
  | copy (core block unit size : Nat) (write : Bool)
  | cvRelease (cell who : Nat)
  | clean (handle : Nat)
  | add (call : Option Nat) (job : Nat)
  | settle (cell : Nat)
  | refusedAdd (part : Nat)
  | desc (cell beat : Nat)
  | card (cell version beat : Nat)
  | contribution (tag : Nat) (who : Waiter)
  | quiet
  deriving DecidableEq, Repr

/-- A packet sent whose answer is awaited: its flow, its SEQ, the address that it names, and what has come of an answer in
several packets. -/
structure Remote where
  gateway : Nat
  dst : Nat
  cls : Nat
  seq : BitVec 11
  tag : Nat := 0
  addr : Word
  what : RemoteWhat
  got : List Byte := []
  deriving DecidableEq, Repr

/-- The MAPCMD registers and the command in progress, with the OP and PAGE that it read at its start and how it
ended, which STATUS shows with its end (R235). -/
structure MapCmd where
  op : Word := 0
  page : Word := 0
  curOp : Word := 0
  curPage : Word := 0
  counter : Word := 0
  counterAsid : BitVec 16 := 0
  status : BitVec 8 := 0
  outcome : BitVec 8 := 0
  running : Bool := false
  done : Bool := false
  held : List (Word × BitVec 16) := []
  deriving DecidableEq, Repr

/-- The kinds of a page (R154, R235). -/
inductive PageKind where
  | plain | object | slot
  deriving DecidableEq, Repr

/-- The combine state of a barrier held by a gateway (R351), with the beats of a descriptor on another device (R373). -/
structure Combine where
  acc : Option (List Byte) := none
  children : List Nat := []
  asked : Bool := false
  desc : List (Nat × List Byte) := []
  descFailed : Bool := false
  deriving DecidableEq, Repr

/-- The group that is being executed: its length and base word, for a captured group its staggered operands, and whether
its load is left to be performed later (R240). A latch of the model (log entry 5). -/
structure Issue where
  len : Nat := 1
  base : Half := 0
  inRep : Bool := false
  defer : Bool := false
  pc : Word := 0
  sa : Word := 0
  sb : Word := 0
  scla : Word := 0
  sclb : Word := 0
  deriving DecidableEq, Repr

/-- One turn of the agenda: a frame issues its next group; it issues it and leaves its load, or its stores to its own
scratchpad, to be performed later (R224, R240); the k-th of what it has left is performed, of a scratchpad load the part
named or the first that is left; a unit of the command that a copy engine's k-th
block runs is read or written ahead of its turn (R278); a cache or
scratch access comes to wait for a slice's command bus (R294); a slice installs an extension image ahead of the others (R367); the
host reads from BAR0 (R357); or another agent takes a step. -/
inductive Turn where
  | issue (frame : Nat)
  | issueLate (frame : Nat)
  | perform (frame k part : Nat)
  | copyUnit (core k unit : Nat)
  | busRequest (slice : Nat)
  | install (slice : Nat)
  | hostRead (off len : Nat)
  | event (i : Instr)
  deriving DecidableEq, Repr

/-- The device registers of R363 and the state of the functions behind them: the slices that an image which passed its checks has
still to be installed in (R367), the measurements of the images loaded since bring-up, and whether a report has been asked for
(R368). -/
structure DevRegs where
  dims : BitVec 3 := 0
  dev : BitVec 18 := 0
  k : Vector Word 6 := Vector.replicate 6 0
  ctxBase : Word := 0
  ctxM : BitVec 5 := 20
  spillLog2 : Word := 16
  spillBase : Word := 0
  budget : Word := 1048576
  timeout : Word := 200
  readout : Word := 0
  traceBase : Word := 0
  traceSize : Word := 0
  trctl : Word := 0
  powerCap : Word := 2400
  hosterr : Word := 0
  asidRoot : Word := 0
  fwimg : Word := 0
  fwcnt : Word := 0
  fwAsid : BitVec 16 := 0
  fwRunning : Bool := false
  fwLeft : List Nat := []
  fwStatus : BitVec 8 := 0
  fwHeld : List (Word × BitVec 16) := []
  freezeReq : Bool := false
  frozen : Bool := false
  ready : BitVec 16 := 0
  failed : BitVec 16 := 0
  measures : List (List Byte) := []
  attestAsked : Bool := false
  fwAddr : Word := 0
  fwImage : List Byte := []
  idle : BitVec 16 := 0
  traceRecords : List (List Byte) := []
  traceCount : Nat := 0
  traceJob : Nat := 0
  traced : List Nat := []
  tracedJobs : List Nat := []
  gatewayErrors : Tbl Nat := []
  deriving DecidableEq, Repr

/-- The state of the device; `steps` counts the steps on each cell (R157), `refired` names the refire push behind a job
queue's slot (R193), `turns` the job that a level dealt last, by its place (R142). -/
structure State where
  cur : Nat := 0
  issue : Issue := {}
  agenda : List Turn := []
  freeCtr : Nat := 0
  mem : Memory := []
  lines : List SliceLine := []
  tags : Tbl (BitVec 3) := []
  pages : Tbl PageKind := []
  bound : Tbl (Nat × List Nat) := []
  cellAsid : Tbl (BitVec 16) := []
  steps : Tbl Nat := []
  refired : Tbl (Nat × Nat) := []
  poison : List Nat := []
  eccCorrected : Nat := 0
  frames : Tbl Frame := []
  cores : Tbl Core := []
  quads : Tbl Quad := []
  slices : Tbl Slice := []
  waits : List Wait := []
  msgs : List Msg := []
  parts : Tbl Partition := []
  jobs : List Job := []
  turns : Tbl Nat := []
  nextJob : Nat := 1
  nextBlock : Nat := 0
  ctxs : Tbl Ctx := []
  combines : Tbl Combine := []
  fenced : BitVec 4 := 0
  master : BitVec 2 := 0
  electing : Bool := false
  stopped : Bool := false
  dev : DevRegs := {}
  mapcmd : MapCmd := {}
  mcDropped : BitVec 32 := 0
  windows : Tbl Window := []
  flowsOut : List FlowOut := []
  flowsIn : List FlowIn := []
  ports : Vector Port 24 := Vector.replicate 24 {}
  links : Tbl Link := []
  remotes : List Remote := []
  nextTag : Nat := 0
  stamps : Nat := 0
  slots : Tbl HostSlot := []
  hostOut : List HostOut := []
  msixTable : Tbl Word := []
  msixPending : List Nat := []
  deriving DecidableEq, Repr

/-- What executing an instruction gives. -/
abbrev Result := Host.Outcome State Fault Refusal

/-- The machine right after reset: no context, nothing listed in any memory, every register at the value of its map
(R8, R13, R361, R363) or the one the log names. -/
def State.reset : State := {}

end Sys2Proof.Machine
end

