-- ==== Sys2Proof/Machine/Memory.lean ====
section
/-! DEFINITION. The device's memory by home address: bytes, values and the map from addresses to homes (R206, R207,
R210, R215, R236), and the lines that home slices hold of device memory (R212, R218, R225). -/

namespace Sys2Proof.Machine

/-- A fresh open value and the state in which it is taken. -/
def State.fresh (s : State) (w : Nat) : BitVec w × State :=
  (Config.freeValue w s.freeCtr, { s with freeCtr := s.freeCtr + 1 })

/-- The byte at a home address; an unlisted one has its reset value (log entry 2). -/
def Memory.get : Memory → Nat → Byte
  | [], a => resetByte a
  | (k, v) :: t, a => if a < k then resetByte a else if a = k then v else Memory.get t a

/-- Memory with one byte written, in canonical form. -/
def Memory.set : Memory → Nat → Byte → Memory
  | [], a, b => if b = resetByte a then [] else [(a, b)]
  | (k, v) :: t, a, b =>
    if a < k then (if b = resetByte a then (k, v) :: t else (a, b) :: (k, v) :: t)
    else if a = k then (if b = resetByte a then t else (k, b) :: t)
    else (k, v) :: Memory.set t a b

/-- Every address listed is above a bound and they rise, and no byte listed has its reset value. -/
def Memory.above : Nat → Memory → Bool
  | _, [] => true
  | n, (k, v) :: t => decide (n ≤ k) && v != resetByte k && Memory.above (k + 1) t

/-- The canonical form: addresses strictly rising, nothing listed that an unlisted address reads as. -/
def Memory.wf (m : Memory) : Bool := Memory.above 0 m

/-- `n` bytes from an address up. -/
def Memory.read (m : Memory) (a : Nat) : Nat → List Byte
  | 0 => []
  | n + 1 => m.get a :: Memory.read m (a + 1) n

/-- Bytes written from an address up. -/
def Memory.write (m : Memory) (a : Nat) : List Byte → Memory
  | [] => m
  | b :: bs => Memory.write (m.set a b) (a + 1) bs

/-- The little-endian value of `n` bytes (R6). -/
def Memory.value (m : Memory) (a n : Nat) : Nat := leValue (m.read a n)

/-- Memory with a range of bytes at their reset value, which is 0 outside the control region. -/
def Memory.clear (m : Memory) (lo hi : Nat) : Memory := m.filter fun c => !(lo ≤ c.1 && c.1 < hi)

/-- The home address of a core's scratchpad byte: region 1 (R207). -/
def localKey (core l : Nat) : Nat := 2 ^ 42 + core * 2 ^ 30 + l

/-- The home address of a byte of slice memory by device slice: region 2 (R207). -/
def sliceKey (sl off : Nat) : Nat := 2 * 2 ^ 42 + sl / 48 * 2 ^ 40 + sl % 48 * 2 ^ 32 + off

/-- The home address of a control-region item: region 3 (R208). -/
def ctlKey (off : Nat) : Nat := 3 * 2 ^ 42 + off

/-- The region of a home address. -/
def regionOf (key : Nat) : Nat := key / 2 ^ 42

/-- The home slice of a physical address, counted over the device (R215). -/
def sliceOfPA (pa : Nat) : Nat :=
  let g := pa / 4096
  let st := g % 12
  48 * (st / 3) + 16 * (st % 3) + g / 12 % 16

/-- The set of a line in its home slice (R212). -/
def setOfPA (pa : Nat) : Nat := (pa / 4096 / 192 * 16 + pa / 256 % 16) % 1024

/-- The control offset of the machine-check queue (R328). -/
def mcQueueOff : Nat := 0x060040

/-- The partition and level of a job-queue cell's control offset (R208). -/
def jobQueueOf? (off : Nat) : Option (Nat × Nat) :=
  if 0x010000 ≤ off && off < 0x050000 then
    let o := off - 0x010000
    if o % 64 = 0 && o % 0x1000 / 64 < 48 then some (o / 0x1000, o % 0x1000 / 64) else none
  else none

/-- The control offset of a job-queue cell (R208). -/
def jobQueueOff (p l : Nat) : Nat := 0x010000 + 0x1000 * p + 0x40 * l

/-- The device slice at which a cell is homed (R138, R215, R328). -/
def cellSlice (key : Nat) : Nat :=
  if regionOf key = 0 then sliceOfPA key
  else if regionOf key = 3 then
    match jobQueueOf? (key - ctlKey 0) with
    | some (p, l) => (48 * p + l) % 192
    | none => 0
  else 0

/-- The slice with a number. -/
def State.sliceAt (s : State) (n : Nat) : Slice := (tblGet? s.slices n).getD {}
/-- The state with a slice replaced. -/
def State.putSlice (s : State) (n : Nat) (x : Slice) : State := { s with slices := tblPut s.slices n x }

/-- The ways of a slice: its banks in cache mode, way w in bank w (R212, R213). -/
def Slice.wayList (x : Slice) : List Nat := (List.range 16).filter fun b => x.mode.toList[b]? == some .cache

/-- The number of a slice's ways. -/
def Slice.ways (x : Slice) : Nat := x.wayList.length

/-- The held line of a number. -/
def findLine : List SliceLine → Nat → Option SliceLine
  | [], _ => none
  | l :: t, n => if l.line = n then some l else findLine t n

/-- Whether two lines have one slice and one set. -/
def sameSet (a b : Nat) : Bool := sliceOfPA (a * 256) == sliceOfPA (b * 256) && setOfPA (a * 256) == setOfPA (b * 256)

/-- The line that replacement evicts from the set of a line: the least recently used that is neither pinned nor kept,
else the least recently used kept one (R218, R225). -/
def victimLine (ls : List SliceLine) (n : Nat) : Option Nat :=
  let set := ls.reverse.filter fun l => sameSet l.line n && l.pin.isNone
  match set.find? (fun l => !l.keep) with
  | some l => some l.line
  | none => set.head?.map (·.line)

/-- The way that a new line of a set takes: the lowest that no line of the set holds, among some ways (log entry 103). -/
def freeWay (ws : List Nat) (set : List SliceLine) : Option Nat := ws.find? fun w => !set.any (·.way == w)

/-- The lines held once the line of a region-0 byte is in its home slice under a hint, with some of its sectors valid (R212,
R218): the most recently used, or the next to be evicted under `stream`. Evicted dirty data reaches DRAM, so its snapshot is
dropped. Whether a line's `keep` ends with a later access under another hint R218 does not say: it stays (log entry 124). -/
def State.linesTouched (s : State) (pa : Nat) (h : Hint) (sectors : BitVec 8) : List SliceLine :=
  let n := pa / 256
  let place (l : SliceLine) (ls : List SliceLine) : List SliceLine :=
    if h = .stream then ls ++ [l] else l :: ls
  match findLine s.lines n with
  | some l =>
    place { l with keep := l.keep || h == .keep, valid := l.valid ||| sectors } (s.lines.filter (·.line != n))
  | none =>
    let new (w : Nat) : SliceLine := { line := n, way := w, valid := sectors, keep := h == .keep }
    match freeWay (s.sliceAt (sliceOfPA pa)).wayList (s.lines.filter fun l => sameSet l.line n) with
    | some w => place (new w) s.lines
    | none =>
      match (victimLine s.lines n).bind (findLine s.lines) with
      | some v => place (new v.way) (s.lines.filter (·.line != v.line))
      | none => s.lines

/-- The line of a region-0 byte filled into its home slice under a hint. -/
def State.touch (s : State) (pa : Nat) (h : Hint) : State := { s with lines := s.linesTouched pa h 0xFF }

/-- The sectors that `n` bytes from an address cover. -/
def sectorsOf (a n : Nat) : List Nat :=
  if n = 0 then [] else (List.range ((a + n - 1) / 32 - a / 32 + 1)).map (a / 32 + ·)

/-- A sector of a held line becomes dirty: what DRAM holds of it is kept (R212, R227). -/
def State.dirtySector (s : State) (sec : Nat) : State :=
  { s with lines := s.lines.map fun l =>
      if l.line = sec / 8 && !l.dirty.getLsbD (sec % 8) then
        { l with dirty := l.dirty ||| (1 <<< (sec % 8)), dram := (sec, s.mem.read (sec * 32) 32) :: l.dram }
      else l }

/-- The lines held once bytes of region 0 are written: their sectors are valid and dirty in the home slice (R212). -/
def State.linesWritten (s : State) (key n : Nat) (h : Hint) : List SliceLine :=
  ((sectorsOf key n).foldl (fun t sec =>
    ({ t with lines := t.linesTouched (sec * 32) h (1 <<< (sec % 8)) } : State).dirtySector sec) s).lines

/-- Bytes written at their home at one instant (R236). Poison ends where a sector is overwritten whole (R327). -/
def State.homeWrite (s : State) (key : Nat) (bs : List Byte) (h : Hint := .normal) : State :=
  { s with
    lines := if regionOf key = 0 then s.linesWritten key bs.length h else s.lines
    mem := s.mem.write key bs
    poison := s.poison.filter fun sec => !(key ≤ sec * 32 && sec * 32 + 32 ≤ key + bs.length) }

/-- The value of `n` bytes at their home. -/
def State.homeValue (s : State) (key n : Nat) : Nat := s.mem.value key n

/-- Sectors cleared to zero whole, which ends their poison (R297, R326, R327). -/
def State.clearRange (s : State) (lo hi : Nat) : State :=
  { s with mem := s.mem.clear lo hi, poison := s.poison.filter fun sec => !(lo ≤ sec * 32 && sec * 32 < hi) }

/-- Whether some byte of a range is poisoned (R327). -/
def State.poisoned (s : State) (key n : Nat) : Bool := (sectorsOf key n).any s.poison.contains

/-- Sectors marked poisoned (R327). -/
def State.markPoison (s : State) (secs : List Nat) : State :=
  { s with poison := s.poison ++ secs.filter fun x => !s.poison.contains x }

/-- The poison of bytes copied whole from one sector-aligned home to another (R327). -/
def State.carryPoison (s : State) (src dst n : Nat) : State :=
  s.markPoison (((sectorsOf src n).filter s.poison.contains).map fun x => x - src / 32 + dst / 32)

/-- The tag of a sector of device memory (R153): what its page's slot marking or an engine set. -/
def State.tagOf (s : State) (sec : Nat) : Nat :=
  match tblGet? s.tags sec with
  | some t => t.toNat
  | none => if tblGet? s.pages (sec / 2048) = some .slot then 7 else 0

/-- A sector's tag written. -/
def State.setTag (s : State) (sec t : Nat) : State := { s with tags := tblPut s.tags sec (.ofNat 3 t) }

end Sys2Proof.Machine
end

