-- ==== Sys2Proof/Machine/Mesh.lean ====
section
/-! DEFINITION. The meshes of the dies (R220 to R223, R333): its nodes and the source endpoints that name them
(R338), routes, and the accounting of its links. -/

namespace Sys2Proof.Machine

/-- A context's entry. -/
def State.ctxAt (s : State) (h : Nat) : Ctx := (tblGet? s.ctxs h).getD {}

/-! ### Routes (R220, R223, R333) -/

/-- The next position of a packet in one dimension of the combined grid: a skip of four inside a die, else one hop; no skip
crosses a boundary (R220, R223). -/
def meshNext (p q : Nat) : Nat :=
  let goal := if p / 24 = q / 24 then q else if p < q then p / 24 * 24 + 23 else p / 24 * 24
  if p < goal then (if 4 ≤ goal - p then p + 4 else p + 1)
  else if goal < p then (if 4 ≤ p - goal then p - 4 else p - 1)
  else if p < q then p + 1 else p - 1

/-- The positions that a packet passes in one dimension, the last its goal. -/
def meshLine : Nat → Nat → Nat → List Nat
  | 0, _, _ => []
  | n + 1, p, q => if p = q then [] else meshNext p q :: meshLine n (meshNext p q) q

/-- The column and the row of a core's router in the combined grid (R333). -/
def gridOf (core : Nat) : Nat × Nat := (core / 1024 % 2 * 24 + core % 32, core / 2048 * 24 + core / 32 % 32)

/-- The column and the row of the edge router of a device slice (R220). -/
def sliceGrid (sl : Nat) : Nat × Nat := gridOf (sl / 48 * 1024 + (if sl % 48 < 24 then 0 else 23 * 32) + sl % 48 % 24)

/-- The column and the row of the edge router of a fabric port's gateway (R336). -/
def gatewayGrid (p : Nat) : Nat × Nat :=
  gridOf (p / 6 * 1024 + (2 + 4 * (p % 6)) * 32 + (if p / 6 % 2 = 0 then 0 else 23))

/-- The nodes of the mesh: the routers, which are the cores, each 64 times its row plus its column; the slices; the gateways; the
control block (log entry 104). -/
def coreNode (core : Nat) : Nat := (gridOf core).2 * 64 + (gridOf core).1
def sliceNode (sl : Nat) : Nat := 4096 + sl
def gatewayNode (p : Nat) : Nat := 8192 + p
def controlNode : Nat := 16384

/-- The column and the row of the router at which a node stands or to which it is attached (R208, R223, R336). -/
def nodeGrid (n : Nat) : Nat × Nat :=
  if n < 4096 then (n % 64, n / 64) else if n < 8192 then sliceGrid (n - 4096)
  else if n < 16384 then gatewayGrid (n - 8192) else (0, 0)

/-- The routers that a packet from one router to another passes, first in x and then in y (R220). -/
def meshRoute (a b : Nat × Nat) : List Nat :=
  (a.2 * 64 + a.1) :: ((meshLine 48 a.1 b.1).map (a.2 * 64 + ·) ++ (meshLine 48 a.2 b.2).map (· * 64 + b.1))

/-- The lane of a packet: on the load-store mesh requests take the plain lane, and replies a virtual channel of their own that
crosses a boundary of two dies by the skip lane (R220, R333); bulk traffic takes one of the two bulk planes (R221; which one is log
entry 104). -/
def laneOf (reply bulk : Bool) : Nat := reply.toNat + 2 * bulk.toNat

/-- The links between successive nodes, each named by its two ends and its lane. -/
def linksOf (lane : Nat) : List Nat → List Nat
  | a :: b :: t => ((a * 32768 + b) * 4 + lane) :: linksOf lane (b :: t)
  | _ => []

/-- Two nodes are cores of one quad, whose scratchpads the quad crossbar links (R210). -/
def sameQuad (a b : Nat) : Bool := a < 4096 && b < 4096 && a / 128 == b / 128 && a % 64 / 2 == b % 64 / 2

/-- The links of a packet from one node to another; a slice, a gateway and the control block lie one hop beyond their edge
routers (R220, R223). A packet within a quad travels over the crossbar (R210). -/
def linksBetween (a b lane : Nat) : List Nat :=
  if a = b || sameQuad a b then []
  else linksOf lane ((if a < 4096 then [] else [a]) ++ meshRoute (nodeGrid a) (nodeGrid b) ++ (if b < 4096 then [] else [b]))

/-- The link in the other direction between the same ends, of the same lane. -/
def linkBack (l : Nat) : Nat := (l / 4 % 32768 * 32768 + l / 131072) * 4 + l % 4

/-- The node of a home (R208, R236). -/
def homeNode (key : Nat) : Nat :=
  match regionOf key with
  | 0 => sliceNode (sliceOfPA key)
  | 1 => coreNode ((key - 2 ^ 42) / 2 ^ 30)
  | 2 => sliceNode (bitsOf key 41 40 * 48 + bitsOf key 37 32)
  | 3 =>
    let off := key - ctlKey 0
    if off = mcQueueOff || (jobQueueOf? off).isSome then sliceNode (cellSlice key) else controlNode
  | _ => controlNode

/-- A mesh link's accounting. -/
def State.linkAt (s : State) (l : Nat) : Link := (tblGet? s.links l).getD {}

/-- The slots that a link's sender may still fill: what it last heard of freed slots plus the receiver's buffer less what it
has sent (R222). -/
def Link.allowance (l : Link) : BitVec 16 := l.reported + Config.meshSlots - l.sent

/-- A beacon brings the sender the count of freed slots (R222). -/
def Link.beacon (l : Link) : Link := { l with reported := l.freed }

/-- A flit crosses a link and moves on, which frees its slot; its copy stays in the replay buffer. One that finds no slot waits for
the beacon first (R222; time is log entry 10). -/
def Link.cross (l : Link) (x : Flit) : Link :=
  let l1 := if l.allowance = 0 then l.beacon else l
  { l1 with sent := l1.sent + 1, freed := l1.freed + 1, buffer := some x }

/-- A link with something changed, where it has an account. -/
def changeLink (t : Tbl Link) (l : Nat) (g : Link → Link) : Tbl Link :=
  match tblGet? t l with
  | some x => tblPut t l (g x)
  | none => t

/-- A flit of a packet has crossed a link: the report that it carries reaches the sender of the other direction (R222). -/
def crossLink (a b place : Nat) (t : Tbl Link) (l : Nat) : Tbl Link :=
  let report := ((tblGet? t (linkBack l)).getD {}).freed
  changeLink (tblPut t l (((tblGet? t l).getD {}).cross { src := a, dst := b, place := place, report := report })) (linkBack l)
    Link.beacon

/-- A packet of some flits has gone from one node to another (R220, R221). -/
def State.crossed (s : State) (a b flits : Nat) (reply : Bool) (bulk : Bool := false) : State :=
  let ls := linksBetween a b (laneOf reply bulk)
  { s with links := (List.range flits).foldl (fun t i => ls.foldl (crossLink a b i) t) s.links }

/-- A request of some flits has gone from a node to another and its reply has come back (R220). -/
def State.roundTrip (s : State) (a b flits back : Nat) : State := (s.crossed a b flits false).crossed b a back true

/-- The nodes of some homes, one for each line of 256 bytes that they lie in. -/
def homeNodes (ks : List Nat) : List Nat := (ks.map (· / 256)).eraseDups.map fun n => homeNode (n * 256)

/-- A node's engine has read bytes at some homes over the bulk planes, by flits of 512 bytes (R221). -/
def State.bulkRead (s : State) (a : Nat) (ks : List Nat) : State :=
  (homeNodes ks).foldl (fun t h => (t.crossed a h 1 false true).crossed h a 1 true true) s

/-- A node's engine has written bytes at some homes over the bulk planes (R221). -/
def State.bulkWrite (s : State) (a : Nat) (ks : List Nat) : State :=
  (homeNodes ks).foldl (fun t h => t.crossed a h 1 false true) s

/-! ### Endpoints and their nodes (R338) -/

/-- The source endpoint of a core (R338). -/
def coreEndpoint (core : Nat) : Nat := core
/-- The source endpoint of a slice (R338). -/
def sliceEndpoint (sl : Nat) : Nat := sl / 48 * 1024 + (24 + sl % 48 / 24) * 32 + sl % 24
/-- The source endpoint of a die's distributor (R338). -/
def distributorEndpoint (die : Nat) : Nat := die * 1024 + 27 * 32

/-- The endpoint of a gateway counted over the device (R338). -/
def gatewayEndpoint (g : Nat) : Nat := g / 6 * 1024 + 26 * 32 + g % 6

/-- The ingress gateway of a source endpoint (R341), counted over the device. -/
def ingressOf (sep : Nat) : Nat := 6 * bitsOf sep 11 10 + (bitsOf sep 9 5 + bitsOf sep 4 0) % 6
/-- The endpoint that answers for a waiter (R338). -/
def Waiter.endpoint (s : State) : Waiter → Nat
  | .ctx id => coreEndpoint ((s.ctxAt (id % 2 ^ 20)).frame / 4)
  | .child cell => sliceEndpoint (cellSlice cell)
  | .card _ => distributorEndpoint s.master.toNat
  | .xfer core _ => coreEndpoint core
  | .drain _ => distributorEndpoint s.master.toNat
  | .refire cell _ => sliceEndpoint (cellSlice cell)
  | .remote _ sep _ _ _ => sep

/-- The node of a source endpoint; the distributor's and the control block's is the control block (R338; log entry 104). -/
def endpointNode (sep : Nat) : Nat :=
  let row := sep / 32 % 32
  if row < 24 then coreNode sep
  else if row < 26 then sliceNode (sep / 1024 * 48 + (row - 24) * 24 + sep % 32)
  else if row = 26 then gatewayNode (sep / 1024 * 6 + sep % 32)
  else controlNode

/-- The node at which a waiter stands as seen from a cell: of another device's, the gateway by which the cell's slice reaches it. -/
def State.waiterNode (s : State) (w : Waiter) (cell : Nat) : Nat :=
  match w with
  | .remote .. => gatewayNode (ingressOf (sliceEndpoint (cellSlice cell)))
  | _ => endpointNode (w.endpoint s)

/-- The flits of an object request or its answer with a payload: packets of a header and 32 bytes (R220; log entry 104). -/
def objectFlits (n : Nat) : Nat := 2 * max 1 ((n + 31) / 32)

/-- An object request with a payload of `n` bytes, or its answer, has crossed the mesh between who asks and the cell's home (R220). -/
def State.carried (s : State) (who : Waiter) (cell n : Nat) (reply : Bool) : State :=
  let a := s.waiterNode who cell
  if reply then s.crossed (homeNode cell) a (objectFlits n) true else s.crossed a (homeNode cell) (objectFlits n) false

end Sys2Proof.Machine
end

