-- ==== Sys2Proof/Machine/Cells.lean ====
section
/-! DEFINITION. Object cells as bytes of memory, the wait lists of their home slices, the messages that answer and wake
requesters (R157 to R167), and the queue steps that job queues and the machine-check queue share (R181, R328). -/

namespace Sys2Proof.Machine

/-- A field of a cell (R171, R184). -/
def State.cellGet (s : State) (key off n : Nat) : Nat := s.homeValue (key + off) n

/-- A field of a cell written. -/
def State.cellPut (s : State) (key off n v : Nat) : State := s.homeWrite (key + off) (leBytes n v)

/-- A message put in flight, behind those already there. -/
def State.send (s : State) (m : Msg) : State := { s with msgs := s.msgs ++ [m] }

/-- The type tag of a cell: of its sector in device memory; of a job queue while its partition lives, and of the
machine-check queue, 4 (R138, R153, R328). -/
def State.cellTag (s : State) (key : Nat) : Nat :=
  if regionOf key = 0 then s.tagOf (key / 32)
  else if regionOf key = 3 then
    let off := key - ctlKey 0
    if off = mcQueueOff then 4
    else match jobQueueOf? off with
      | some (p, _) => if ((tblGet? s.parts p).getD {}).live then 4 else 0
      | none => 0
  else 0

/-- A partition's record. -/
def State.part (s : State) (p : Nat) : Partition := (tblGet? s.parts p).getD {}
/-- The state with a partition's record replaced. -/
def State.putPart (s : State) (p : Nat) (x : Partition) : State := { s with parts := tblPut s.parts p x }

/-- The position in a cell's order of the last step on it (R157): the steps on it counted from 1 (log entry 98). -/
def State.stepOf (s : State) (cell : Nat) : Nat := (tblGet? s.steps cell).getD 0

/-- Who asks an engine for a step, and where its answer goes (R159, R165); for a waiter that a condition moved, the
address of its lock as the condition holds it (R182). -/
structure Req where
  who : Waiter
  rk : ReplyKind := .withValue
  d : SReg := 0
  vd : VReg := 0
  addr : Word := 0
  lock : Word := 0

/-- An engine's answer: status, value and payload, the lock that it grants, the watch that it sets or clears, and its
step's position in the cell's order (R157). -/
structure Answer where
  status : Nat := 0
  value : Nat := 0
  payload : List Byte := []
  grant : Option Word := none
  unlock : Option Word := none
  watch : Option WatchMove := none
  trap : Option (BitVec 8 × Word) := none
  position : Nat := 0

/-- The status by which an agent's own waiter learns of an answer: a trap tells it that there is no cell it can use. -/
def Answer.code (a : Answer) : BitVec 8 := if a.trap.isSome then 9 else .ofNat 8 a.status

/-- What a step gives its requester: an answer, or none when it parked or nobody asked. -/
abbrev StepResult := State × Option Answer

/-- The message that brings an answer or a wake from a cell to whoever asked (R164, R167); none where nobody is told. To a requester
on another device a granted lock is named only where it is not the cell asked for (log entry 12). -/
def Answer.msg (a : Answer) (r : Req) (home : Nat) (wake : Bool) : Option Msg :=
  let from_ := if wake then some home else none
  match r.who with
  | .child cell => some (.parentWake cell a.code a.payload from_)
  | .card job => some (.cardWake job a.code from_)
  | .xfer core block => some (.xferWake core block a.code from_)
  | .drain _ => none
  | .refire cell version => if a.code = 0 then none else some (.refireLost cell version)
  | _ => some (.reply
      { who := r.who, kind := r.rk, d := r.d, vd := r.vd, status := .ofNat 8 a.status, value := .ofNat 64 a.value,
        payload := a.payload, cell := r.addr, home := home, wake := wake
        grant := match r.who with | .remote .. => a.grant.map fun _ => r.lock | _ => a.grant
        unlock := a.unlock, watch := a.watch, trap := a.trap, position := a.position })

/-- An answer of the device itself sent to a waiter. -/
def State.deliver (s : State) (r : Req) (a : Answer) : State :=
  match a.msg r 0 false with
  | none => s
  | some m => s.send m

/-- A cell's answer or wake sent to a waiter across the mesh (R220); a wake whose entry is in the spill ring leaves after the ring
is read (R162). -/
def State.answer (s : State) (r : Req) (a : Answer) (cell : Nat) (wake : Bool := false) (spilled : Bool := false) : State :=
  match a.msg r cell wake with
  | none => s
  | some m => (s.carried r.who cell a.payload.length true).send (if spilled then .spilled cell m else m)

/-- The request that a wait entry stands for. -/
def Wait.req (w : Wait) : Req := { who := w.who, rk := w.rk, d := w.d, vd := w.vd, addr := w.addr, lock := w.lock }

/-- The wait list of a cell, in the order of the steps that parked its waiters (R161). -/
def State.waitsOf (s : State) (cell : Nat) : List Wait := s.waits.filter (·.cell == cell)

/-- The first entry of a list that satisfies a test marked as held in the RAM. -/
def unspillFirst (p : Wait → Bool) : List Wait → List Wait
  | [] => []
  | w :: t => if p w then { w with spilled := false } :: t else w :: unspillFirst p t

/-- RAM entries of a slice refilled from its ring, oldest first (R162). -/
def State.refillWaits (s : State) (sl : Nat) : State :=
  if (s.waits.filter fun w => cellSlice w.cell == sl && !w.spilled).length < 2048 then
    { s with waits := unspillFirst (fun w => cellSlice w.cell == sl && w.spilled) s.waits }
  else s

/-- The list without the first entry equal to one, be it in the RAM or in the ring. -/
def eraseWait (w : Wait) : List Wait → List Wait
  | [] => []
  | x :: t => if { x with spilled := w.spilled } = w then t else x :: eraseWait w t

/-- The parked counts that a cell shows (R171): a counter's held at 65,535, a lock's, a queue's two, a condition's. A
queue's two-byte counts wrap at 65,536 waiters: the spec names no saturation for them (log entry 89). -/
def State.recount (s : State) (cell : Nat) : State :=
  let ws := s.waitsOf cell
  match s.cellTag cell with
  | 1 => s.cellPut cell 8 2 (min ws.length 65535)
  | 3 => s.cellPut cell 16 4 ws.length
  | 4 =>
    (s.cellPut cell 12 2 (ws.filter (·.kind == .push)).length).cellPut cell 14 2 (ws.filter (·.kind == .pop)).length
  | 5 => s.cellPut cell 4 4 ws.length
  | _ => s

/-- A waiter taken out of its list (R161, R162). -/
def State.unpark (s : State) (w : Wait) : State :=
  (({ s with waits := eraseWait w s.waits } : State).refillWaits (cellSlice w.cell)).recount w.cell

/-- A waiter removed and woken (R161), with the position of the step that released it (R164). -/
def State.wake (s : State) (w : Wait) (a : Answer) : State :=
  (s.unpark w).answer w.req { a with position := s.stepOf w.cell } w.cell true w.spilled

/-- Waiters removed and woken in list order with answers of their own. -/
def State.wakeAll (s : State) (ws : List Wait) (a : Wait → Answer) : State :=
  ws.foldl (fun t w => t.wake w (a w)) s

/-- Waiters that stand for an engine or the distributor, here or on another device, and may use the reserve of a spill
ring (R159, R162). -/
def Waiter.internal : Waiter → Bool
  | .ctx _ => false
  | .remote _ _ _ _ internal => internal
  | _ => true

/-- An entry of 128 bytes written to a slice's spill ring; the spec gives it no format, so its bytes are open (R162; log
entry 95). -/
def State.writeRing (s : State) (sl : Nat) : State :=
  let entries := 2 ^ s.dev.spillLog2.toNat
  let x := s.sliceAt sl
  let (w, t) := s.fresh 1024
  (t.putSlice sl { x with ringTail := x.ringTail + 1 }).homeWrite
    (t.dev.spillBase.toNat + (sl * entries + x.ringTail % entries) * 128) (leBytes 128 w.toNat)

/-- An entry at the tail of the wait lists. -/
def State.pushWait (s : State) (w : Wait) : State := { s with waits := s.waits ++ [w] }

/-- A waiter enlisted at the tail of its cell's list: in the RAM, else in the ring, whose last eighth only internal
and moved waiters may use; none where there is no entry (R161 to R163). -/
def State.enlist (s : State) (w : Wait) (moved : Bool := false) : Option State :=
  let sl := cellSlice w.cell
  let here := s.waits.filter fun x => cellSlice x.cell == sl
  let ram := (here.filter (!·.spilled)).length
  let ring := here.length - ram
  let entries := 2 ^ s.dev.spillLog2.toNat
  let room := if w.who.internal || moved then entries else entries / 8 * 7
  if ram < 2048 then some ((s.pushWait { w with spilled := false }).recount w.cell)
  else if ring < room then
    some (((s.writeRing sl).pushWait { w with spilled := true }).recount w.cell)
  else none

/-- The entry under which a request parks. -/
def Req.wait (r : Req) (cell : Nat) (kind : WaitKind) (arg : Nat := 0) (payload : List Byte := []) : Wait :=
  { cell := cell, kind := kind, who := r.who, arg := arg, d := r.d, vd := r.vd, rk := r.rk, addr := r.addr,
    lock := r.lock, payload := payload }

/-- The request parks, or is answered OVERFLOW with no effect on the cell (R163). For OVERFLOW and for DESTROYED the spec
names no value, and S[d+1] receives 0 (log entry 88). -/
def State.parkOr (s : State) (w : Wait) : StepResult :=
  match s.enlist w with
  | some t => (t, none)
  | none => (s, some { status := 3 })

/-- The size of a queue's slots in bytes (R171). -/
def State.slotSize (s : State) (key : Nat) : Nat := 8 * 2 ^ (s.cellGet key 2 1 % 4)

/-- The modulus of a queue's counts (R181). -/
def queueMod (c : Nat) : Nat := c * (2 ^ 32 / c)

/-- The occupancy of a queue (R181). -/
def State.queueOcc (s : State) (key : Nat) : Nat :=
  let w := queueMod (s.cellGet key 0 2)
  (s.cellGet key 8 4 + w - s.cellGet key 4 4) % w

/-- The home address of a queue's slot: in the page bound to the queue at its place (R171, R362); the machine-check
queue's slots are held by the device, where no address reaches (R328). -/
def State.slotKey (s : State) (key n : Nat) : Nat :=
  let o := n * s.slotSize key
  if key = ctlKey mcQueueOff then 15 * 2 ^ 42 + o
  else match s.bound.find? (fun b => b.2.1 == key && b.2.2.contains (o / 65536)) with
    | some b => b.1 * 65536 + o % 65536
    | none => 14 * 2 ^ 42 + o

/-- A queue's count of pushes or pops advanced by one (R181). -/
def State.advance (s : State) (key off : Nat) : State :=
  s.cellPut key off 4 ((s.cellGet key off 4 + 1) % queueMod (s.cellGet key 0 2))

/-- A slot written, and whose refire push it holds, if one's (R193). -/
def State.putSlot (s : State) (key : Nat) (who : Waiter) (d : List Byte) : State :=
  let slot := s.slotKey key (s.cellGet key 8 4 % s.cellGet key 0 2)
  let t := s.homeWrite slot d
  { t with refired := match who with
      | .refire cell version => tblPut t.refired slot (cell, version)
      | _ => tblDel t.refired slot }

/-- Engine.Step(BQPUSH or BQPUSH.NW) of R181 on a queue that is not destroyed. -/
def State.queuePush (s : State) (r : Req) (key : Nat) (nw : Bool) (data : List Byte) : StepResult :=
  let c := s.cellGet key 0 2
  let d := data.take (s.slotSize key)
  if s.queueOcc key < c then
    match (s.waitsOf key).find? (·.kind == .pop) with
    | some w =>
      let t := ((s.advance key 8).advance key 4).wake w { value := 0, payload := d }
      (t, some { value := t.queueOcc key })
    | none =>
      let t := (s.putSlot key r.who d).advance key 8
      (t, some { value := t.queueOcc key })
  else if nw then (s, some { status := 1, value := s.queueOcc key })
  else s.parkOr (r.wait key .push 0 d)

/-- Engine.Step(BQPOP or BQPOP.NW) of R181 on a queue that is not destroyed. -/
def State.queuePop (s : State) (r : Req) (key : Nat) (nw : Bool) : StepResult :=
  let c := s.cellGet key 0 2
  if 0 < s.queueOcc key then
    let data := s.mem.read (s.slotKey key (s.cellGet key 4 4 % c)) (s.slotSize key)
    let t := s.advance key 4
    let t :=
      match (t.waitsOf key).find? (·.kind == .push) with
      | some w =>
        let u := (t.putSlot key w.who w.payload).advance key 8
        u.wake w { value := u.queueOcc key }
      | none => t
    (t, some { value := t.queueOcc key, payload := data })
  else if nw then (s, some { status := 1, value := 0 })
  else s.parkOr (r.wait key .pop)

/-- The 64-byte record of a machine check (R328). -/
def mcRecord (kind unit die dropped addr who pc : Nat) : List Byte :=
  leBytes 2 kind ++ leBytes 1 unit ++ leBytes 1 die ++ leBytes 4 dropped ++ leBytes 8 addr ++ leBytes 8 who ++
  leBytes 8 pc ++ leBytes 32 0

/-! ### The trace of steps (R370, R371) -/

/-- The 16-byte record of a step: slice, cell, waiter id and step number (R370; its layout is log entry 13). -/
def traceRecord (cell who n : Nat) : List Byte :=
  leBytes 1 (cellSlice cell) ++ leBytes 6 (cell / 32) ++ leBytes 5 who ++ leBytes 4 n

/-- A record appended to the trace buffer; where it is full recording stops and TRCTL[1] is set (R370). -/
def State.trace (s : State) (bs : List Byte) : State :=
  let d := s.dev
  let at_ := 16 * d.traceCount
  if at_ + 16 ≤ d.traceSize.toNat then
    let s1 := s.homeWrite (d.traceBase.toNat + at_) bs
    { s1 with dev := { s1.dev with traceCount := d.traceCount + 1 } }
  else { s with dev := { d with trctl := d.trctl &&& ~~~1 ||| 2 } }

/-- TRCTL[0]: recording goes on, by a function that is READY (R364). -/
def State.recording (s : State) : Bool := s.dev.ready.getLsbD 10 && s.dev.trctl.getLsbD 0 && !s.dev.trctl.getLsbD 2
/-- TRCTL[2]: a replay goes on, by a function that is READY (R364). -/
def State.replayOn (s : State) : Bool := s.dev.ready.getLsbD 10 && s.dev.trctl.getLsbD 2

/-- The first record of the trace that is left and begins as given. -/
def State.nextTraced (s : State) (mark : List Byte) : Option (List Byte) :=
  s.dev.traceRecords.find? fun b => b.take mark.length == mark

/-- A record of the trace used up. -/
def State.useTraced (s : State) (b : List Byte) : State :=
  { s with dev := { s.dev with traceRecords := s.dev.traceRecords.erase b } }

/-- What a step's record begins with: its slice and cell, or these and the waiter id. -/
def stepMark (cell : Nat) (who : Option Nat) : List Byte :=
  (traceRecord cell (who.getD 0) 0).take (if who.isSome then 12 else 7)

/-! ### Machine checks (R328) -/

/-- The machine-check queue's cell. -/
def mcCell : Nat := ctlKey mcQueueOff

/-- A record pushed to the machine-check queue, a step of its cell's order (R157); when the queue is full the record is dropped and
counted in the next one (R328). -/
def State.pushCheck (s : State) (kind unit die addr who pc : Nat) : State :=
  let s1 : State := { s with steps := tblPut s.steps mcCell (s.stepOf mcCell + 1) }
  let (t, a) := s1.queuePush { who := .drain 0 } mcCell true (mcRecord kind unit die s.mcDropped.toNat addr who pc)
  if a.map (·.status) = some 0 then { t with mcDropped := 0 } else { t with mcDropped := s.mcDropped + 1 }

/-- A replay stopped by an event that the trace lacks: TRCTL[3], and a machine-check record of kind 8 (R371). -/
def State.diverge (s : State) : State :=
  ({ s with dev := { s.dev with trctl := s.dev.trctl &&& ~~~4 ||| 8 } } : State).pushCheck 8 0 0 0 0 0

/-- A step's place in the trace (R370, R371), its waiter named by `who`: while recording, a step of a recorded job marks its cell as
touched, and every step on a touched cell is logged; in a replay the step is taken off the trace, and one that it lacks, of a recorded
job or on a traced cell, stops the replay. -/
def State.traceAs (s : State) (who cell n : Nat) (mine : Bool) : State :=
  let d := s.dev
  if s.replayOn then
    match s.nextTraced (stepMark cell (some who)) with
    | some b => s.useTraced b
    | none => if mine || d.traced.contains cell then s.diverge else s
  else if s.recording && (mine || d.traced.contains cell) then
    ({ s with dev := { d with traced := if d.traced.contains cell then d.traced else cell :: d.traced } } : State).trace
      (traceRecord cell who n)
  else s

/-- A machine check pushes its record to the machine-check queue (R328), with its place in the trace (R370). -/
def State.machineCheck (s : State) (kind unit die addr who pc : Nat) : State :=
  let t := s.pushCheck kind unit die addr who pc
  t.traceAs 0 mcCell (t.stepOf mcCell) false

/-- The overflow of a spill ring's reserve: the slice's error bit and a machine check of kind 4 (R163). -/
def State.reserveOverflow (s : State) (cell : Nat) : State :=
  let n := cellSlice cell
  (s.putSlice n { s.sliceAt n with overflowErr := true }).machineCheck 4 (n % 48) (n / 48) cell 0 0

end Sys2Proof.Machine
end

