-- ==== Sys2Proof/Machine/Ops.lean ====
section
/-! DEFINITION. The named operations that meanings share: frames and their registers, retirement, traps and kills
(R10, R18, R23, R308 to R315, R325), address checks and translation (R207, R228 to R231), the L1 (R217, R237) and posted
accesses (R244, R317). -/

namespace Sys2Proof.Machine

/-! ### Frames, cores, quads -/

/-- The frame with a number; one that has held no context is EMPTY. -/
def State.frameAt (s : State) (n : Nat) : Frame := (tblGet? s.frames n).getD {}
/-- The state with a frame replaced. -/
def State.putFrame (s : State) (n : Nat) (f : Frame) : State := { s with frames := tblPut s.frames n f }
/-- The core with a number. -/
def State.coreAt (s : State) (n : Nat) : Core := (tblGet? s.cores n).getD {}
/-- The state with a core replaced. -/
def State.putCore (s : State) (n : Nat) (c : Core) : State := { s with cores := tblPut s.cores n c }
/-- The quad with a number. -/
def State.quadAt (s : State) (n : Nat) : Quad := (tblGet? s.quads n).getD {}
/-- The state with a quad replaced. -/
def State.putQuad (s : State) (n : Nat) (q : Quad) : State := { s with quads := tblPut s.quads n q }

/-- The issuing frame. -/
def State.fr (s : State) : Frame := s.frameAt s.cur
/-- The state with the issuing frame replaced. -/
def State.putFr (s : State) (f : Frame) : State := s.putFrame s.cur f
/-- The core of the issuing frame. -/
def State.here (s : State) : Nat := s.cur / 4
/-- The state of the issuing frame's core. -/
def State.co (s : State) : Core := s.coreAt s.here
/-- The state with the issuing frame's core replaced. -/
def State.putCo (s : State) (c : Core) : State := s.putCore s.here c

/-- The number of a core's quad, named by its origin core (R210). -/
def quadOf (core : Nat) : Nat := core / 1024 * 1024 + core / 64 % 16 * 64 + core / 2 % 16 * 2

/-- The cores of a quad. -/
def coresOfQuad (q : Nat) : List Nat := [q, q + 1, q + 32, q + 33]

/-- The core exists: x and y are at most 23 (R2). -/
def coreExists (core : Nat) : Bool := core < 4096 && core % 32 < 24 && core / 32 % 32 < 24

/-- The die of a core. -/
def dieOf (core : Nat) : Nat := core / 1024

/-! ### Registers -/

/-- S[r]; s0 reads as zero (R10). -/
def Frame.getS (f : Frame) (r : SReg) : Word := if r = 0 then 0 else f.s[r.toNat]'r.isLt
/-- S[r] written; a write to s0 is discarded (R10). -/
def Frame.setS (f : Frame) (r : SReg) (w : Word) : Frame :=
  if r = 0 then f else { f with s := f.s.set r.toNat w r.isLt, poisonS := f.poisonS &&& ~~~((1 : BitVec 32) <<< r.toNat) }
/-- P[r]; p0 reads as all ones (R10). -/
def Frame.getP (f : Frame) (r : PReg) : Word := if r = 0 then -1 else f.p[r.toNat]'r.isLt
/-- P[r] written; a write to p0 is discarded (R10). -/
def Frame.setP (f : Frame) (r : PReg) (w : Word) : Frame :=
  if r = 0 then f else { f with p := f.p.set r.toNat w r.isLt, poisonP := f.poisonP &&& ~~~((1 : BitVec 8) <<< r.toNat) }
/-- V[r]. -/
def Frame.getV (f : Frame) (r : VReg) : VVal := f.v[r.toNat]'r.isLt
/-- V[r] written whole, which ends its poison (R327). -/
def Frame.setVAll (f : Frame) (r : VReg) (x : VVal) : Frame :=
  { f with v := f.v.set r.toNat x r.isLt, poisonV := f.poisonV &&& ~~~((1 : BitVec 32) <<< r.toNat) }
/-- V[r] written in part. -/
def Frame.setV (f : Frame) (r : VReg) (x : VVal) : Frame := { f with v := f.v.set r.toNat x r.isLt }

/-- S[r] of the issuing frame. -/
def State.rs (s : State) (r : SReg) : Word := s.fr.getS r
/-- S[r] of the issuing frame written. -/
def State.ws (s : State) (r : SReg) (w : Word) : State := s.putFr (s.fr.setS r w)

/-- The scalar operand named by an a field: of a captured group the one read at capture, staggered (R20, R21). -/
def State.srcA (s : State) (r : SReg) : Word := if s.issue.inRep then s.issue.sa else s.rs r
/-- The scalar operand named by a b field. -/
def State.srcB (s : State) (r : SReg) : Word := if s.issue.inRep then s.issue.sb else s.rs r

/-! ### Privilege and identity -/

/-- The context runs in S: TRAPC.INH (R309). -/
def Frame.inS (f : Frame) : Bool := f.trapc.getLsbD 31

/-- The device's number (R336). -/
def State.devNum (s : State) : Nat := s.dev.dev.toNat

/-- The waiter id of a context: device and handle (R160). -/
def State.waiterId (s : State) (handle : BitVec 20) : Nat := s.devNum * 2 ^ 20 + handle.toNat

/-! ### Retirement -/

/-- The sequencer moves past the captured group that has issued; past the last of the last iteration it has drained
(R20, R24). -/
def Repetition.advance (r : Repetition) : Repetition :=
  let r1 :=
    if r.nextSlot + 1 < r.body.length then { r with nextSlot := r.nextSlot + 1 }
    else { r with nextSlot := 0, nextIter := r.nextIter + 1 }
  if r1.nextIter < r1.count then r1
  else { r1 with active := false, trapv := false, body := [], nextSlot := 0, nextIter := 0, count := 0 }

/-- The group retires: the PC moves past it, or for a captured group the sequencer moves on. -/
def State.retire (s : State) : State :=
  let f := s.fr
  if s.issue.inRep then s.putFr { f with rep := f.rep.advance }
  else s.putFr { f with pc := f.pc + .ofNat 64 (2 * s.issue.len) }

/-- The group writes one scalar register and retires. -/
def State.done1 (s : State) (d : SReg) (w : Word) : State := (s.ws d w).retire

/-- Control passes to an address (R83 to R86). -/
def State.jump (s : State) (pc : Word) : State := s.putFr { s.fr with pc := pc }

/-! ### The context table (R320) -/

def CtxState.code : CtxState → Nat
  | .free => 0 | .resident => 1 | .saved => 2 | .runnable => 3 | .dead => 4

/-- The STATE word of a record. -/
def Ctx.word (c : Ctx) : Nat :=
  c.state.code + 8 * c.held.toNat + 16 * c.parked.toNat + 32 * c.matrix.toNat + 64 * c.rept.toNat + 128 * c.inh.toNat +
  256 * c.swcause.toNat + 65536 * c.cleaned.toNat

/-- The physical address of a context's record. -/
def State.recordAt (s : State) (h : Nat) : Nat := (s.dev.ctxBase.toNat / 65536 % 2 ^ 32) * 65536 + 65536 * h

/-- A context's entry written, with the STATE word that is kept live in its record. -/
def State.putCtx (s : State) (h : Nat) (c : Ctx) : State :=
  ({ s with ctxs := tblPut s.ctxs h c } : State).homeWrite (s.recordAt h) (leBytes 8 c.word)

/-! ### QFLAGS (R72) -/

/-- The union of the flags of every frame resident on the quad now (R72); a quad in isolation reset contributes zero. -/
def State.flagUnion (s : State) (core : Nat) : Word :=
  if (s.quadAt (quadOf core)).resetting then 0
  else
    ((coresOfQuad (quadOf core)).flatMap fun c => [0, 1, 2, 3].map fun k => s.frameAt (c * 4 + k)).foldl
      (fun w f => if f.status = .empty then w else w ||| (f.fcsr &&& 0x1F00)) 0

/-- A list up to and with the `n`-th entry that a test marks. -/
def uptoMarks {α : Type} (p : α → Bool) : List α → Nat → List α
  | [], _ => []
  | x :: t, n => if n = 0 then [] else x :: uptoMarks p t (if p x then n - 1 else n)

/-- The union noted as the quad's cores have seen it: at an issue of a core, `by_`, or before something else that may change it. The
cores issue at most 16 groups in the four cycles of R72, so what lies before 16 issues is dropped (log entry 65). -/
def State.sampleFlags (s : State) (core : Nat) (by_ : Option Nat := none) : State :=
  let q := quadOf core
  let old := (s.quadAt q).flagHist
  if by_.isNone && old.head?.map (·.1) == some (s.flagUnion core) then s
  else s.putQuad q { s.quadAt q with flagHist := uptoMarks (·.2.isSome) ((s.flagUnion core, by_) :: old) 16 }

/-! ### Kills and traps -/

/-- An EMPTY frame; the layout records it was given stay in its area (R150). -/
def Frame.emptied (f : Frame) : Frame := { layoutJob := f.layoutJob }

/-- A core that a frame leaves: the matrix bank released, its started TMMA and its place in SWAP gone. -/
def Core.leave (c : Core) (n : Nat) : Core :=
  let f : BitVec 2 := .ofNat 2 n
  { c with
    owner := if c.owner = some f then none else c.owner
    hold := c.hold && c.owner != some f
    tmma := match c.tmma with | some t => if t.frame = n then none else some t | none => none
    swapQueue := c.swapQueue.filter (· != f)
    issuing := if c.issuing = some f then none else c.issuing }

/-- The pins charged to a context released (R225). -/
def State.unpinAll (s : State) (handle : BitVec 20) : State :=
  { s with lines := s.lines.map fun l => if l.pin = some handle.toNat then { l with pin := none } else l }

/-- The copy blocks and moss-mode calls of a killed context run on, answering nobody (R325). -/
def State.orphanEngines (s : State) (core : Nat) (handle : BitVec 20) : State :=
  let me := s.waiterId handle
  let mark (c : Call) : Call := if c.waiter = me then { c with orphan := true } else c
  let c := s.coreAt core
  let s1 := s.putCore core
    { c with fifo := c.fifo.map fun b => if b.handle = handle then { b with orphan := true } else b }
  { s1 with slices := s1.slices.map fun (n, x) =>
      (n, { x with
        queue := x.queue.map mark
        input := x.input.map mark
        run := x.run.map fun r => { r with call := mark r.call } }) }

/-- A request of a parked frame stands at a home slice (R160, R320). -/
def Frame.requesting (f : Frame) : Bool := match f.parkedOn with | .request .. => true | _ => false

/-- A context whose frame or saved image is given up becomes DEAD (R325): its copy blocks and calls run on, its pins are
released, its chunk ends as DONE.AB ends it; its parked request and its locks stay until OKILL. -/
def State.killContext (s : State) (h : Nat) (f : Frame) (core : Nat) : State :=
  let c := s.ctxAt h
  let s1 := (s.putCtx h
    { c with state := .dead, swcause := 0x1F, image := some f, tmma := none,
             parked := f.status == .parked && f.requesting })
  let s2 := (s1.orphanEngines core f.handle).unpinAll f.handle
  match f.job with
  | some j => s2.send (.chunkEnd j f.first f.records true)
  | none => s2

/-- An access that a group has left to be performed is a store. -/
def Late.isStore (x : Late) : Bool := match x.what with | .store _ _ => true | _ => false

/-- A byte whose bits under a mask are replaced. -/
def maskByte (old new mask : Byte) : Byte := (old &&& ~~~mask) ||| (new &&& mask)

/-- A part of a scratchpad store reaches its home at one instant (R111, R224, R236). -/
def State.land (s : State) (key : Nat) (bs : List (Byte × Byte)) : State :=
  s.homeWrite key (((s.mem.read key bs.length).zip bs).map fun e => maskByte e.1 e.2.1 e.2.2)

/-- Every store that a frame has left is performed, in its order. -/
def State.landAll (s : State) (n : Nat) : State :=
  (s.frameAt n).late.foldl (fun t x => match x.what with | .store k bs => t.land k bs | _ => t) s

/-- Every line of the L1 invalidated (R237). -/
def Core.l1Clear (c : Core) : Core := { c with l1 := [] }

/-- A store that a frame issued before a stamp is not complete; a CNTADD.P is an object request and no store (R241). -/
def Frame.owesStore (f : Frame) (stamp : Nat) : Bool :=
  (f.journal.toList.any fun e => e.busy && !e.refused && e.kind != 1 && e.stamp < stamp) ||
  f.late.any fun x => x.isStore && x.stamp < stamp

/-- A load that a frame issued before a stamp is not complete. -/
def Frame.owesLoad (f : Frame) (stamp : Nat) : Bool := f.late.any fun x => !x.isStore && x.stamp < stamp

/-- An access that a frame issued before a stamp is not complete. -/
def Frame.owes (f : Frame) (stamp : Nat) : Bool :=
  (f.journal.toList.any fun e => e.busy && !e.refused && e.stamp < stamp) || f.late.any (·.stamp < stamp)

/-- A posted store of a context that its frame no longer holds is on its way, or its acknowledgement is: killed, it has no
journal, and the core still waits for it (R241, R325). An AMO on its way to another device, whose write is a store, is waited for
whatever has become of its frame. -/
def State.strayStores (s : State) (core stamp : Nat) : Bool :=
  let stray (f : Nat) (h : BitVec 20) : Bool :=
    f / 4 == core && ((s.frameAt f).status == .empty || (s.frameAt f).handle != h)
  (s.msgs.any fun m => match m with
    | .posted x => x.kind != 1 && x.stamp < stamp && stray x.frame x.handle
    | .ack f h _ | .refusal f h _ _ => stray f h
    | _ => false) ||
  s.remotes.any fun r => match r.what with
    | .posted f h _ => stray f h
    | .load f _ _ _ _ (some t) => f / 4 == core && t < stamp
    | _ => false

/-- Some frame of a core owes a store that it issued before a stamp. -/
def State.coreOwesStore (s : State) (core stamp : Nat) : Bool :=
  ([0, 1, 2, 3].any fun k => (s.frameAt (core * 4 + k)).owesStore stamp) || s.strayStores core stamp

/-- A mark of a FENCE of a frame still holds the accesses that follow it (R241). -/
def State.markHolds (s : State) (n : Nat) (m : FenceMark) : Bool :=
  (m.loads && (s.frameAt n).owesLoad m.stamp) ||
  (m.stores && if m.wide then s.coreOwesStore (n / 4) m.stamp else (s.frameAt n).owesStore m.stamp)

/-- The FENCEs of a frame let go what no longer waits; where later loads are released so, the L1 is invalidated if a FENCE
asked for it (R241). -/
def State.settleFence (s : State) (n : Nat) : State :=
  let f := s.frameAt n
  let loads := f.fenceLoads.filter (s.markHolds n)
  let freed := loads.isEmpty && f.fenceClear
  let s1 := s.putFrame n
    { f with fenceLoads := loads, fenceStores := f.fenceStores.filter (s.markHolds n), fenceClear := f.fenceClear && !freed }
  if freed then s1.putCore (n / 4) (s1.coreAt (n / 4)).l1Clear else s1

/-- The same for the frames of a core, after one of their accesses has become complete. -/
def State.settleFences (s : State) (core : Nat) : State :=
  [0, 1, 2, 3].foldl (fun t k =>
    let f := t.frameAt (core * 4 + k)
    if f.fenceLoads.isEmpty && f.fenceStores.isEmpty && !f.fenceClear then t else t.settleFence (core * 4 + k)) s

/-- The kill of R325: the frame stops and becomes EMPTY, what it has left to store is performed, the matrix bank is released
unwritten, the context is DEAD and its chunk ends as DONE.AB ends it; FENCEs of the core's other frames that waited for it alone let go
(R241). Its parked request and its locks stay until OKILL. A CTXSAVE that waits for the
frame's save is answered BUSY (log entry 18). -/
def State.killFrame (s0 : State) (n : Nat) : State :=
  let s := (s0.sampleFlags (n / 4)).landAll n
  let f := s.frameAt n
  let s1 :=
    ((s.putFrame n f.emptied).putCore (n / 4) ((s.coreAt (n / 4)).leave n)).killContext f.handle.toNat f (n / 4)
  (f.stopFor.foldl (fun u w => u.deliver w.req { value := 7 }) s1).settleFences (n / 4)

/-- A trap kills the context: it is inside a handler or has none (R310, R312). -/
def Frame.noHandler (f : Frame) : Bool := f.inS || f.hndbase.toNat % 65536 = 0

/-- The trap registers and the PC that TakeTrap sets (R309, R310). -/
def Frame.enterHandler (f : Frame) (cause detail : Nat) (pc val : Word) (len jent : Nat) : Frame :=
  { f with
    trapc := .ofNat 64 (cause + detail * 2 ^ 8 + len * 2 ^ 16 + (if len = 0 then 2 ^ 19 else 0) + jent * 2 ^ 20 + 2 ^ 31)
    trappc := pc
    trapval := val
    capture := none
    pc := .ofNat 64 (f.hndbase.toNat / 65536 * 65536 + 0x40 * cause) }

/-- TakeTrap of R310 in a frame: inside a handler or without handlers the context is killed, with a machine check of
kind 2 or 6; otherwise the cause, the PC and the value are recorded, the context enters S and its PC is the vector. A capture in
progress is discarded (R125). -/
def State.takeTrapIn (s : State) (n cause detail : Nat) (pc val : Word) (len jent : Nat) : State :=
  let f := s.frameAt n
  if f.noHandler then
    (s.machineCheck (if f.inS then 2 else 6) cause (dieOf (n / 4)) 0 (s.waiterId f.handle) pc.toNat).killFrame n
  else s.putFrame n (f.enterHandler cause detail pc val len jent)

/-- What a precise trap of a captured group records, its repetition standing at the group (R23). -/
def Frame.suspendAt (f : Frame) (r : Repetition) : Frame :=
  { f with rep := { r with
      active := true
      trapv := true
      iter := r.nextIter
      slot := r.nextSlot
      cont := ((f.pc - r.endPc).sshiftRight 1).setWidth 32 } }

/-- What a precise trap of the captured group that is executing records (R23). -/
def Frame.suspendRep (f : Frame) : Frame := f.suspendAt f.rep

/-- A precise trap of the group that is executing (R308). The group has no other effect. -/
def State.trap (s : State) (cause : Nat) (val : Word) (detail : Nat := 0) : State :=
  if s.issue.inRep then
    (s.putFr s.fr.suspendRep).takeTrapIn s.cur cause detail s.issue.pc val s.issue.len 0
  else s.takeTrapIn s.cur cause detail s.fr.pc val s.issue.len 0

/-- TRAPVAL of ILLEGAL and PRIV at the base word: the halfword and its position (R36). -/
def State.baseVal (s : State) : Word := .ofNat 64 (s.issue.base.toNat + (s.issue.len - 1) * 65536)

/-- The ILLEGAL of a class or of a value, at the base word (R36, R135). -/
def State.illegal (s : State) : State := s.trap 1 s.baseVal
/-- The PRIV of an instruction that needs S, or of a control register (R36, R313). -/
def State.priv (s : State) : State := s.trap 2 s.baseVal

/-- The group retires and then the trap is taken, with TRAPPC at the group (R168, R315). -/
def State.retireThenTrap (s : State) (cause detail : Nat) (val : Word) : State :=
  s.retire.takeTrapIn s.cur cause detail s.fr.pc val s.issue.len 0

/-- ERET of R315: back to U; a trapped repetition resumes at (ITER, SLOT) and the scalar stream at the end of the body
plus CONT. -/
def Frame.eret (f : Frame) : Frame :=
  let back := if f.rep.trapv then f.rep.endPc + 2 * f.rep.cont.signExtend 64 else f.trappc
  { f with
    pc := back
    rep := if f.rep.trapv && f.rep.active then
        { f.rep with trapv := false, nextIter := f.rep.iter, nextSlot := f.rep.slot }
      else { f.rep with trapv := false }
    trapc := f.trapc &&& ~~~((1 : Word) <<< 31) }

/-! ### Addresses and translation -/

/-- The DEV field of a global address (R206). -/
def devOf (a : Word) : Nat := a.toNat / 2 ^ 46
/-- The home address that a global address names on its device: region and region fields. -/
def keyOf (a : Word) : Nat := a.toNat % 2 ^ 46

/-- The address form of R207. -/
def addrForm (a : Word) : Bool :=
  let d := devOf a
  let k := keyOf a
  (d < 131072 || d = 0x3FFFF) &&
  (match regionOf k with
   | 0 => bitsOf k 41 39 = 0
   | 1 => bitsOf k 29 19 = 0 && bitsOf k 39 35 ≤ 23 && bitsOf k 34 30 ≤ 23
   | 2 => bitsOf k 39 38 = 0 && bitsOf k 31 22 = 0 && bitsOf k 37 32 ≤ 47
   | 3 => bitsOf k 41 23 = 0
   | _ => false)

/-- The address names this device (R207). -/
def State.isLocal (s : State) (a : Word) : Bool := devOf a = 0x3FFFF || devOf a = s.devNum

/-- The core of a region-1 home address. -/
def coreOfKey (k : Nat) : Nat := (k - 2 ^ 42) / 2 ^ 30
/-- The local offset of a region-1 home address. -/
def localOfKey (k : Nat) : Nat := k % 2 ^ 30
/-- The device slice of a region-2 home address. -/
def sliceOfKey (k : Nat) : Nat := bitsOf k 41 40 * 48 + bitsOf k 37 32
/-- The offset in slice memory of a region-2 home address. -/
def offOfKey (k : Nat) : Nat := k % 2 ^ 22

/-! ### Translation (R228 to R232) -/

/-- A non-leaf entry is well formed, its table aligned to `align` bytes and within capacity (R228, R230). -/
def tableEntry (e align : Nat) : Option Nat :=
  let t := bitsOf e 47 8 * 256
  if e % 2 = 1 && bitsOf e 7 1 = 0 && bitsOf e 63 48 = 0 && t % align = 0 && t < Config.capacity then some t else none

/-- A leaf entry is well formed for a page of `2 ^ bits` bytes (R228, R230). -/
def leafEntry (e bits : Nat) : Bool :=
  e % 4 = 3 && bitsOf e 7 6 != 3 && bitsOf e 63 50 = 0 && bitsOf e 47 8 * 256 % 2 ^ bits = 0

/-- What a walk reads: the addresses of the entries, in their order; how many of them, the root entry and those of levels 0 to
2, are valid; and the leaf entry with its page size in bits. -/
structure Walk where
  reads : List Nat
  valid : Nat
  leaf : Option (Word × Nat)

/-- The walk of R228 to R230 from an ASID's root, its entries read by `rd`. -/
def State.walkBy (s : State) (rd : Nat → Nat) (asid va : Nat) : Walk :=
  let ar := bitsOf s.dev.asidRoot.toNat 47 16 * 65536 + 8 * asid
  let root := rd ar
  if root % 2 = 0 || bitsOf root 5 1 != 0 || bitsOf root 63 48 != 0 || Config.capacity ≤ bitsOf root 47 6 * 64 then
    { reads := [ar], valid := 0, leaf := none }
  else
    let a0 := bitsOf root 47 6 * 64 + 8 * bitsOf va 38 36
    match tableEntry (rd a0) 512 with
    | none => { reads := [ar, a0], valid := 1, leaf := none }
    | some t1 =>
      let a1 := t1 + 8 * bitsOf va 35 30
      let e1 := rd a1
      if e1 / 2 % 2 = 1 then
        { reads := [ar, a0, a1], valid := if leafEntry e1 30 then 3 else 2
          leaf := if leafEntry e1 30 then some (.ofNat 64 e1, 30) else none }
      else match tableEntry e1 4096 with
        | none => { reads := [ar, a0, a1], valid := 2, leaf := none }
        | some t2 =>
          let a2 := t2 + 8 * bitsOf va 29 21
          let e2 := rd a2
          if e2 / 2 % 2 = 1 then
            { reads := [ar, a0, a1, a2], valid := if leafEntry e2 21 then 4 else 3
              leaf := if leafEntry e2 21 then some (.ofNat 64 e2, 21) else none }
          else match tableEntry e2 256 with
            | none => { reads := [ar, a0, a1, a2], valid := 3, leaf := none }
            | some t3 =>
              let a3 := t3 + 8 * bitsOf va 20 16
              let e3 := rd a3
              { reads := [ar, a0, a1, a2, a3], valid := 4
                leaf := if leafEntry e3 16 then some (.ofNat 64 e3, 16) else none }

/-- The walk that reads every entry at its home. -/
def State.walk (s : State) (asid va : Nat) : Option (Word × Nat) := (s.walkBy (fun a => s.homeValue a 8) asid va).leaf

/-- The slice whose walker serves a core's miss: (ASID XOR VA[31:16]) mod 48 of the core's die (R232). -/
def walkerOf (core asid va : Nat) : Nat := dieOf core * 48 + ((asid % 65536) ^^^ bitsOf va 31 16) % 48

/-- What a slice's walker reads at an entry's address: what it caches, else the entry at its home (R232). -/
def State.walkerRead (s : State) (sl a : Nat) : Nat :=
  match tblGet? (s.sliceAt sl).walkCache a with
  | some w => w.toNat
  | none => s.homeValue a 8

/-- The walk that answers a core's miss. -/
def State.walkFor (s : State) (core asid va : Nat) : Walk := s.walkBy (s.walkerRead (walkerOf core asid va)) asid va

/-- A cached translation maps an address of an ASID (R230, R232). -/
def TlbEntry.hits (t : TlbEntry) (asid va : Nat) : Bool :=
  t.vpage = va / 2 ^ t.bits && (t.asid.toNat = asid || t.leaf.getLsbD 49)

/-- The translation used by a core: cached in the core, in its quad, or walked (R232). -/
def State.leafOf (s : State) (core asid va : Nat) : Option (Word × Nat) :=
  match (s.coreAt core).tlb.find? (·.hits asid va) with
  | some t => some (t.leaf, t.bits)
  | none =>
    match (s.quadAt (quadOf core)).l2tlb.find? (·.hits asid va) with
    | some t => some (t.leaf, t.bits)
    | none => (s.walkFor core asid va).leaf

/-- A list of at most `n` entries with one more, an open choice giving way when it is full. -/
def State.cacheIn {α : Type} (s : State) (n : Nat) (l : List α) (x : α) : List α × State :=
  if l.length < n then (x :: l, s)
  else let (b, t) := s.fresh 16; (x :: dropNth l (b.toNat % n), t)

/-- A translation cached in a core (R232). -/
def State.tlbFill (s : State) (core : Nat) (t : TlbEntry) : State :=
  let (l, s1) := s.cacheIn 32 ((s.coreAt core).tlb.filter (· != t)) t
  s1.putCore core { s1.coreAt core with tlb := l }

/-- A translation cached in a quad, in one of 8 ways of its set; the set is named by the page (R232; log entry 104). -/
def State.quadFill (s : State) (q : Nat) (t : TlbEntry) : State :=
  let same (u : TlbEntry) : Bool := u.vpage % 64 == t.vpage % 64
  let old := (s.quadAt q).l2tlb.filter (· != t)
  let (l, s1) := s.cacheIn 8 (old.filter same) t
  s1.putQuad q { s1.quadAt q with l2tlb := l ++ old.filter (!same ·) }

/-- A walk as it leaves the mesh, the lines that it read at their homes and its walker's cache of 512 entries: the valid ones of
levels 0 to 2 and the root entry (R220, R229, R232). -/
def State.walked (s : State) (core asid va : Nat) : State :=
  let sl := walkerOf core asid va
  let w := s.walkFor core asid va
  let rd := s.walkerRead sl
  let s1 := (w.reads.filter fun a => (tblGet? (s.sliceAt sl).walkCache a).isNone).foldl
    (fun t a => (t.touch a .normal).roundTrip (sliceNode sl) (homeNode a) 1 2) (s.roundTrip (coreNode core) (sliceNode sl) 1 2)
  (w.reads.take w.valid).foldl (fun t a =>
    if (tblGet? (t.sliceAt sl).walkCache a).isSome then t
    else
      let (l, t1) := t.cacheIn 512 (t.sliceAt sl).walkCache (a, .ofNat 64 (rd a))
      t1.putSlice sl { t1.sliceAt sl with walkCache := l }) s1

/-- What a core's translation of an address leaves in the caches of translations: a hit in the quad is cached in the core, a
walk's leaf in both (R232). -/
def State.translated (s : State) (core asid va : Nat) : State :=
  match (s.coreAt core).tlb.find? (·.hits asid va) with
  | some _ => s
  | none =>
    match (s.quadAt (quadOf core)).l2tlb.find? (·.hits asid va) with
    | some t => s.tlbFill core t
    | none =>
      let s1 := s.walked core asid va
      match (s.walkFor core asid va).leaf with
      | none => s1
      | some (leaf, bits) =>
        let t : TlbEntry := { asid := .ofNat 16 asid, vpage := va / 2 ^ bits, bits := bits, leaf := leaf }
        (s1.tlbFill core t).quadFill (quadOf core) t

/-- An access of the issuing frame has had its address translated, be it refused afterwards or not: the caches of translations hold
what they then hold (R231, R232). -/
def State.looked (s : State) (a : Word) (al : Nat) : State :=
  if addrForm a && a.toNat % al = 0 && s.isLocal a && regionOf (keyOf a) = 0 then
    s.translated s.here s.fr.asid.toNat (keyOf a)
  else s

/-- The walk of an agent without a cache of translations, from the node at which it stands, leaves the mesh and the lines that it read
at their homes (R212, R220, R232). -/
def State.agentLooked (s : State) (node : Nat) (asid : BitVec 16) (a : Word) : State :=
  if addrForm a && s.isLocal a && regionOf (keyOf a) = 0 then
    (s.walkBy (fun x => s.homeValue x 8) asid.toNat (keyOf a)).reads.foldl
      (fun t x => (t.touch x .normal).roundTrip node (homeNode x) 1 2) s
  else s

/-- The walks for `n` bytes from an address, one for each 64 KiB page. -/
def State.spanLooked (s : State) (node : Nat) (asid : BitVec 16) (a : Word) (n : Nat) : State :=
  (List.range ((a.toNat % 65536 + n + 65535) / 65536)).foldl
    (fun t i => t.agentLooked node asid (if i = 0 then a else .ofNat 64 ((a.toNat / 65536 + i) * 65536))) s

/-- The physical address that a leaf maps an address to. -/
def leafPA (leaf : Word) (bits va : Nat) : Nat := bitsOf leaf.toNat 47 8 * 256 / 2 ^ bits * 2 ^ bits + va % 2 ^ bits

/-- The permissions that an access needs (R230). -/
structure Perm where
  r : Bool := false
  w : Bool := false
  x : Bool := false

/-- Steps 2 and 3 of R231 on a leaf: XLATE beyond capacity, ACCESS without a permission; else the physical address and
the page kind. -/
def checkLeaf (leaf : Word) (bits va : Nat) (user : Bool) (p : Perm) : Except Nat (Nat × Nat) :=
  let pa := leafPA leaf bits va
  if Config.capacity ≤ pa then .error 5
  else if (user && !leaf.getLsbD 5) || (p.r && !leaf.getLsbD 2) || (p.w && !leaf.getLsbD 3) || (p.x && !leaf.getLsbD 4)
    then .error 6
  else .ok (pa, bitsOf leaf.toNat 7 6)

/-- Steps 2 and 3 of R231 for a core's access to a region-0 offset: the physical address and page kind, or the cause. -/
def State.region0 (s : State) (core asid va : Nat) (user : Bool) (p : Perm) : Except Nat (Nat × Nat) :=
  match s.leafOf core asid va with
  | none => .error 5
  | some (leaf, bits) => checkLeaf leaf bits va user p

/-- The same for an agent without a translation cache of its own, under an ASID (R232, R373). -/
def State.region0Agent (s : State) (asid va : Nat) (user : Bool) (p : Perm) : Except Nat (Nat × Nat) :=
  match s.walk asid va with
  | none => .error 5
  | some (leaf, bits) => checkLeaf leaf bits va user p

/-! ### The L1 (R217, R218, R237) -/

/-- The bytes that the L1 holds of a range within one line. -/
def Core.l1Get (c : Core) (pa n : Nat) : Option (List Byte) :=
  (c.l1.find? (·.line == pa / 32)).map fun l => (l.data.drop (pa % 32)).take n

/-- The L1's line of an address is poisoned (R327). -/
def Core.l1Poisoned (c : Core) (pa : Nat) : Bool := c.l1.any fun l => l.line == pa / 32 && l.poisoned

/-- Bytes of a list replaced from a place on. -/
def patch (bs : List Byte) (at_ : Nat) (new : List Byte) : List Byte :=
  bs.take at_ ++ new ++ bs.drop (at_ + new.length)

/-- A store updates the L1 line if it is present and never allocates one (R217). -/
def Core.l1Put (c : Core) (pa : Nat) (bs : List Byte) : Core :=
  { c with l1 := c.l1.map fun l => if l.line = pa / 32 then { l with data := patch l.data (pa % 32) bs } else l }

/-- One line of the L1 invalidated (R237). -/
def Core.l1Drop (c : Core) (pa : Nat) : Core := { c with l1 := c.l1.filter (·.line != pa / 32) }

/-- A posted store of a core to bytes of device memory is on its way to its home. -/
def Posted.over (x : Posted) (core key n : Nat) : Bool :=
  x.frame / 4 == core && !x.remote && x.kind == 0 && x.home < key + n && key < x.home + x.size

/-- A posted store of some frame of a core to a line is on its way: a line filled now would lack it, and nothing would update it
(R237, R238; log entry 102). -/
def State.linePosted (s : State) (core line : Nat) : Bool :=
  s.msgs.any fun m => match m with | .posted x => x.over core (line * 32) 32 | _ => false

/-- A line allocated in the L1 from its home, evicting one of its four ways when all are held: the line marked as the
next victim, else an open choice (R217, R218). -/
def State.l1Fill (s : State) (core pa : Nat) (stream : Bool) : State :=
  let c := s.coreAt core
  let n := pa / 32
  if c.l1.any (·.line == n) then s
  else
    let new : L1Line := { line := n, data := s.mem.read (n * 32) 32, victimNext := stream, poisoned := s.poison.contains n }
    let set := c.l1.filter fun l => l.line % 512 == n % 512
    if set.length < 4 then s.putCore core { c with l1 := new :: c.l1 }
    else
      let (pick, s1) :=
        match set.find? (·.victimNext) with
        | some l => (some l, s)
        | none => let (b, t) := s.fresh 2; (set[b.toNat]?, t)
      let out := match pick with | some l => l.line | none => n
      s1.putCore core { c with l1 := new :: c.l1.filter (·.line != out) }

/-! ### Local scratchpad (R16, R81, R110) -/

/-- The checks of a local access of `n` bytes aligned to `al`, in the order of R81: BOUND, ALIGN, ACCESS. -/
def Frame.localFault (f : Frame) (ea : Nat) (n al : Nat) : Option Nat :=
  if 0x7FFFF < ea || 0x7FFFF < ea + n - 1 then some 4
  else if ea % al ≠ 0 then some 3
  else if !f.inS && 0x60000 ≤ ea + n - 1 then some 6
  else none

/-- The checks of a read of `n` bytes of the issuing core's scratchpad: those of R81, then poison, MCHECK with DETAIL 1 (R327). The
cause and its detail. -/
def State.padFault (s : State) (a n al : Nat) : Option (Nat × Nat) :=
  match (s.frameAt s.cur).localFault a n al with
  | some c => some (c, 0)
  | none => if s.poisoned (localKey (s.cur / 4) a) n then some (0x1F, 1) else none

/-- Bytes of the issuing core's scratchpad. -/
def State.localRead (s : State) (l n : Nat) : List Byte := s.mem.read (localKey s.here l) n
/-- Bytes written to the issuing core's scratchpad. -/
def State.localWrite (s : State) (l : Nat) (bs : List Byte) : State := s.homeWrite (localKey s.here l) bs

/-! ### The journal and posted accesses (R244, R317) -/

/-- The journal entry that a posted access takes: the lowest free one (log entry 126). -/
def Frame.freeEntry (f : Frame) : Option (Fin 16) := (List.finRange 16).find? fun i => !f.journal[i].busy

/-- URS: entries held and not refused (R245, R317). -/
def Frame.urs (f : Frame) : Nat := (f.journal.toList.filter fun e => e.busy && !e.refused).length

/-- A posted access takes a journal entry and leaves for its home: who issued it is filled in here. -/
def State.post (s : State) (i : Fin 16) (x : Posted) : State :=
  let f := s.fr
  let e : JEntry :=
    { busy := true, addr := x.addr, data := x.data, kind := x.kind, sub := x.sub
      home := if x.remote then none else some x.home, size := x.size, stamp := s.stamps }
  (({ s with stamps := s.stamps + 1 } : State).putFr { f with journal := f.journal.set i e }).send (.posted
    { x with frame := s.cur, handle := f.handle, entry := i.val, part := f.part, asid := f.asid, stamp := s.stamps })

/-- No posted access of the frame is still in flight. -/
def Frame.drained (f : Frame) : Bool := f.urs = 0

/-- Every access of a frame is complete, posted ones acknowledged (R236, R243, R247). -/
def Frame.complete (f : Frame) : Bool := f.drained && f.late.isEmpty

/-- What a release or an object request waits for: every earlier access of its context is complete and, of a release at scope
quad or wider, every store of the core (R243, R247). -/
def State.releasable (s : State) (wide : Bool) : Bool := s.fr.complete && !(wide && s.coreOwesStore s.here s.stamps)

/-- An access that the group in execution leaves to be performed. -/
def State.pushLate (s : State) (w : LateWhat) : State :=
  let f := s.fr
  let x : Late :=
    { stamp := s.stamps, what := w, pc := if s.issue.inRep then s.issue.pc else f.pc, len := s.issue.len
      rep := if s.issue.inRep then some f.rep else none }
  ({ s with stamps := s.stamps + 1 } : State).putFr { f with late := f.late ++ [x] }

end Sys2Proof.Machine
end

