-- ==== Sys2Proof/Machine/Crypto.lean ====
section
/-! DEFINITION. The hash and the signatures of firmware images and attestation reports (R366, R368): SHA-384, and ECDSA over
the 384-bit random-parameter Brainpool curve of RFC 5639. The standards that the rules name give the constants (log entry 121). -/

namespace Sys2Proof.Machine

/-! ### SHA-384 -/

/-- The largest number whose power `k` is at most `n`, of numbers below 2^72: its bits, from the highest. -/
def rootFloor (k n : Nat) : Nat :=
  (List.range 72).foldl (fun r i => if (r + 2 ^ (71 - i)) ^ k ≤ n then r + 2 ^ (71 - i) else r) 0

/-- The first 64 bits of the fraction of the root of degree `k` of a number. -/
def rootFraction (k n : Nat) : Word := .ofNat 64 (rootFloor k (n * 2 ^ (64 * k)))

/-- The primes below 410: there are 80. -/
def shaPrimes : List Nat :=
  let small := [2, 3, 5, 7, 11, 13, 17, 19]
  small ++ (List.range 410).filter fun n => 20 ≤ n && small.all fun d => n % d != 0

/-- The round constants of SHA-384 are fractions of the cube roots of the first 80 primes. -/
def shaConstants : List Word := shaPrimes.map (rootFraction 3)

/-- The initial hash value of SHA-384: fractions of the square roots of the ninth to the sixteenth prime. -/
def shaInitial : List Word := ((shaPrimes.drop 8).take 8).map (rootFraction 2)

/-- Bytes written most significant first. -/
def beBytes (n v : Nat) : List Byte := (leBytes n v).reverse
/-- The value of bytes, most significant first. -/
def beValue (bs : List Byte) : Nat := leValue bs.reverse

/-- A message padded to whole blocks of 128 bytes. -/
def shaPad (m : List Byte) : List Byte :=
  m ++ [0x80] ++ List.replicate ((239 - m.length % 128) % 128) 0 ++ beBytes 16 (8 * m.length)

/-- One round: the eight working variables, and the sixteen words of the message schedule that the next rounds use. -/
def shaRound (x : List Word × List Word) (k : Word) : List Word × List Word :=
  let g (i : Nat) : Word := x.1.getD i 0
  let w (i : Nat) : Word := x.2.getD i 0
  let (a, e) := (g 0, g 4)
  let t1 := g 7 + (e.rotateRight 14 ^^^ e.rotateRight 18 ^^^ e.rotateRight 41) + ((e &&& g 5) ^^^ (~~~e &&& g 6)) + k + w 0
  let t2 := (a.rotateRight 28 ^^^ a.rotateRight 34 ^^^ a.rotateRight 39) + ((a &&& g 1) ^^^ (a &&& g 2) ^^^ (g 1 &&& g 2))
  let s0 := (w 1).rotateRight 1 ^^^ (w 1).rotateRight 8 ^^^ (w 1) >>> 7
  let s1 := (w 14).rotateRight 19 ^^^ (w 14).rotateRight 61 ^^^ (w 14) >>> 6
  ([t1 + t2, a, g 1, g 2, g 3 + t1, e, g 5, g 6], x.2.drop 1 ++ [s1 + w 9 + s0 + w 0])

/-- A block's words taken into a hash value. -/
def shaBlock (h : List Word) (block : List Byte) : List Word :=
  let words := (List.range 16).map fun i => (BitVec.ofNat 64 (beValue ((block.drop (8 * i)).take 8)))
  List.zipWith (· + ·) h (shaConstants.foldl shaRound (h, words)).1

/-- The SHA-384 digest of a message. -/
def sha384 (m : List Byte) : List Byte :=
  let bs := shaPad m
  let h := (List.range (bs.length / 128)).foldl (fun h i => shaBlock h ((bs.drop (128 * i)).take 128)) shaInitial
  (h.flatMap fun w => beBytes 8 w.toNat).take 48

/-! ### The curve -/

/-- The prime of the field. -/
def curveP : Nat := 0x8CB91E82A3386D280F5D6F7E50E641DF152F7109ED5456B412B1DA197FB71123ACD3A729901D1A71874700133107EC53
/-- The coefficient A of the curve y^2 = x^3 + A x + B. -/
def curveA : Nat := 0x7BC382C63D8C150C3C72080ACE05AFA0C2BEA28E4FB22787139165EFBA91F90F8AA5814A503AD4EB04A8C7DD22CE2826
/-- The coefficient B. -/
def curveB : Nat := 0x04A8C7DD22CE28268B39B55416F0447C2FB77DE107DCD2A62E880EA53EEB62D57CB4390295DBC9943AB78696FA504C11
/-- The base point. -/
def curveG : Nat × Nat :=
  (0x1D1C64F068CF45FFA2A63A81B7C13F6B8847A3E77EF14FE3DB7FCAFE0CBD10E8E826E03436D646AAEF87B2E247D4AF1E,
   0x8ABE1D7520F9C2A45CB1EB8E95CFD55262B70B29FEEC5864E19C054FF99129280E4646217791811142820341263C5315)
/-- The order of the base point, a prime. -/
def curveN : Nat := 0x8CB91E82A3386D280F5D6F7E50E641DF152F7109ED5456B31F166E6CAC0425A7CF3AB6AF6B7FC3103B883202E9046565

/-- The bits of a 384-bit number, from the highest, one folding step for each. -/
def foldBits {α : Type} (step : α → Bool → α) (e : Nat) (x : α) : α :=
  (List.range 384).foldl (fun a i => step a (e.testBit (383 - i))) x

/-- A power modulo a number. -/
def powMod (b e m : Nat) : Nat := foldBits (fun a bit => if bit then a * a % m * b % m else a * a % m) e (1 % m)
/-- An inverse modulo a prime. -/
def invMod (a m : Nat) : Nat := powMod a (m - 2) m

/-- A point (x, y) is on the curve. -/
def onCurve (a : Nat × Nat) : Bool :=
  decide (a.1 < curveP) && decide (a.2 < curveP) && a.2 * a.2 % curveP == (a.1 * a.1 * a.1 + curveA * a.1 + curveB) % curveP

/-- The sum of two points, none being the point at infinity. -/
def addPoints (x y : Option (Nat × Nat)) : Option (Nat × Nat) :=
  match x, y with
  | none, q => q
  | p, none => p
  | some a, some b =>
    let minus (u v : Nat) : Nat := (u + (curveP - v % curveP)) % curveP
    if a.1 = b.1 && (a.2 + b.2) % curveP = 0 then none
    else
      let l := if a.1 = b.1 then (3 * a.1 * a.1 + curveA) * invMod (2 * a.2 % curveP) curveP % curveP
        else minus b.2 a.2 * invMod (minus b.1 a.1) curveP % curveP
      let u := minus (l * l) (a.1 + b.1)
      some (u, minus (l * minus a.1 u) a.2)

/-- A multiple of a point. -/
def timesPoint (k : Nat) (x : Nat × Nat) : Option (Nat × Nat) :=
  foldBits (fun a bit => if bit then addPoints (addPoints a a) (some x) else addPoints a a) k none

/-! ### Signatures: r and s, 48 bytes each, most significant first (R366) -/

/-- The ECDSA check of a signature on a message under a public key. -/
def signatureGood (key : Nat × Nat) (message signature : List Byte) : Bool :=
  let r := beValue (signature.take 48)
  let s := beValue ((signature.drop 48).take 48)
  let e := beValue (sha384 message)
  let w := invMod s curveN
  signature.length == 96 && onCurve key && 0 < r && decide (r < curveN) && 0 < s && decide (s < curveN) &&
    (match addPoints (timesPoint (e * w % curveN) curveG) (timesPoint (r * w % curveN) key) with
     | some a => a.1 % curveN == r
     | none => false)

/-- The ECDSA signature of a message by a private key, with the number `k` that the signer takes for it. -/
def signMessage (key k : Nat) (message : List Byte) : List Byte :=
  let r := (match timesPoint k curveG with | some a => a.1 | none => 0) % curveN
  let s := invMod k curveN * (beValue (sha384 message) + r * key) % curveN
  beBytes 48 r ++ beBytes 48 s

/-- The bytes of a public key, x then y. -/
def keyBytes (key : Nat × Nat) : List Byte := beBytes 48 key.1 ++ beBytes 48 key.2

end Sys2Proof.Machine
end

