-- ==== Sys2Proof/Machine/Flags.lean ====
section
/-! DEFINITION. FCSR's fields and flags (R13, R62), the rounding step of R61 with overflow, tininess and flushing
(R62, R63), and exact values between decoding and rounding. -/

namespace Sys2Proof.Machine

/-- The five flags of FCSR in the order of its bits 8 to 12: NV, DZ, OF, UF, NX (R13). -/
abbrev Flags := BitVec 5

def flagNV : Flags := 1
def flagDZ : Flags := 2
def flagOF : Flags := 4
def flagUF : Flags := 8
def flagNX : Flags := 16

/-- Flags where a condition holds. -/
def Flags.when (c : Bool) (f : Flags) : Flags := if c then f else 0

/-- How a float operation rounds: FCSR.RM and FCSR.FZ (R13). -/
structure Mode where
  rm : Nat := 0
  fz : Bool := false
  deriving DecidableEq, Repr

/-- FCSR's rounding mode and flush bit. -/
def modeOf (fcsr : Word) : Mode := { rm := fcsr.toNat % 8, fz := fcsr.getLsbD 3 }

/-- FCSR with flags raised; one already set stays set (R62). -/
def raiseIn (fcsr : Word) (f : Flags) : Word := fcsr ||| (f.setWidth 64 <<< 8)

/-- The rounding of the issuing frame. -/
def State.mode (s : State) : Mode := modeOf s.fr.fcsr

/-- Flags raised in the issuing frame's FCSR. -/
def State.raise (s : State) (f : Flags) : State := s.putFr { s.fr with fcsr := raiseIn s.fr.fcsr f }

/-- An exact value: a NaN, an infinity, or mant * 2^exp with a sign, 0 being a signed zero. -/
inductive FpNum where
  | nan (signalling : Bool)
  | inf (neg : Bool)
  | fin (neg : Bool) (mant : Nat) (exp : Int)
  deriving DecidableEq, Repr

/-- The parameters of an IEEE format: exponent and fraction bits (R55). -/
structure FloatFmt where
  ebits : Nat
  fbits : Nat
  deriving DecidableEq, Repr

def fBf16 : FloatFmt := ⟨8, 7⟩
def fF16 : FloatFmt := ⟨5, 10⟩
def fF32 : FloatFmt := ⟨8, 23⟩
def fF64 : FloatFmt := ⟨11, 52⟩

/-- The width in bits. -/
def FloatFmt.width (f : FloatFmt) : Nat := 1 + f.ebits + f.fbits
/-- The bias (R55). -/
def FloatFmt.bias (f : FloatFmt) : Nat := 2 ^ (f.ebits - 1) - 1
/-- The exponent of the smallest normal number. -/
def FloatFmt.emin (f : FloatFmt) : Int := 1 - (f.bias : Int)
/-- The exponent of the last place of subnormals. -/
def FloatFmt.qmin (f : FloatFmt) : Int := f.emin - (f.fbits : Int)
/-- The bits of +infinity. -/
def FloatFmt.infBits (f : FloatFmt) : Nat := (2 ^ f.ebits - 1) * 2 ^ f.fbits
/-- The canonical NaN (R56). -/
def FloatFmt.nanBits (f : FloatFmt) : Nat := f.infBits + 2 ^ (f.fbits - 1)
/-- The sign bit. -/
def FloatFmt.signBit (f : FloatFmt) (neg : Bool) : Nat := if neg then 2 ^ (f.ebits + f.fbits) else 0
/-- The bits of an infinity. -/
def FloatFmt.inf (f : FloatFmt) (neg : Bool) : Nat := f.infBits + f.signBit neg
/-- The bits of a zero. -/
def FloatFmt.zero (f : FloatFmt) (neg : Bool) : Nat := f.signBit neg

/-- The value of an encoding; under FZ a subnormal reads as a zero of its sign (R63). -/
def FloatFmt.decode (f : FloatFmt) (fz : Bool) (bits : Nat) : FpNum :=
  let frac := bits % 2 ^ f.fbits
  let ex := bits / 2 ^ f.fbits % 2 ^ f.ebits
  let neg := bits / 2 ^ (f.ebits + f.fbits) % 2 == 1
  if ex = 2 ^ f.ebits - 1 then
    if frac = 0 then .inf neg else .nan (frac < 2 ^ (f.fbits - 1))
  else if ex = 0 then .fin neg (if fz then 0 else frac) f.qmin
  else .fin neg (2 ^ f.fbits + frac) (f.qmin + ex - 1)

/-- Whether a magnitude that lies strictly between two multiples, at `rem` parts of `unit` above the lower one and
then `sticky`, is taken to the upper one. -/
def roundUp (rm : Nat) (neg : Bool) (lowOdd : Bool) (rem unit : Nat) (sticky : Bool) : Bool :=
  let inexact := rem != 0 || sticky
  match rm with
  | 0 => decide (unit < 2 * rem) || (2 * rem == unit && (sticky || lowOdd))
  | 1 => false
  | 2 => inexact && !neg
  | 3 => inexact && neg
  | _ => decide (unit ≤ 2 * rem)

/-- mant * 2^exp, a little more when `sticky`, rounded to a multiple of 2^q: the multiple and whether it is inexact.
With `sticky`, `exp` lies below `q`. -/
def roundAt (rm : Nat) (neg : Bool) (mant : Nat) (exp : Int) (sticky : Bool) (q : Int) : Nat × Bool :=
  if q ≤ exp then (mant * 2 ^ (exp - q).toNat, sticky)
  else
    let unit := 2 ^ (q - exp).toNat
    let low := mant / unit
    let rem := mant % unit
    (low + (if roundUp rm neg (low % 2 == 1) rem unit sticky then 1 else 0), rem != 0 || sticky)

/-- What an overflow delivers (R61). -/
def FloatFmt.overflow (f : FloatFmt) (rm : Nat) (neg : Bool) : Nat :=
  if rm = 1 || (rm = 2 && neg) || (rm = 3 && !neg) then f.infBits - 1 + f.signBit neg else f.inf neg

/-- R61 to R63 for a nonzero finite magnitude mant * 2^exp, a little more when `sticky`. -/
def FloatFmt.roundFin (f : FloatFmt) (m : Mode) (neg : Bool) (mant : Nat) (exp : Int) (sticky : Bool) : Nat × Flags :=
  let top : Int := (mant.log2 : Int) + exp
  let qu := top - (f.fbits : Int)
  let (nu, _) := roundAt m.rm neg mant exp sticky qu
  let tiny := if qu < f.qmin then decide (nu < 2 ^ (f.emin - qu).toNat) else false
  if tiny && m.fz then (f.zero neg, flagUF ||| flagNX)
  else
    let q := max qu f.qmin
    let (n, inexact) := roundAt m.rm neg mant exp sticky q
    let bits := (q - f.qmin).toNat * 2 ^ f.fbits + n
    if f.infBits ≤ bits then (f.overflow m.rm neg, flagOF ||| flagNX)
    else (bits + f.signBit neg, (Flags.when inexact flagNX) ||| Flags.when (inexact && tiny) flagUF)

/-- Round of R61 on an exact value; a NaN becomes the canonical one, NV for a signalling one (R56, R62). -/
def FloatFmt.round (f : FloatFmt) (m : Mode) : FpNum → Nat × Flags
  | .nan sig => (f.nanBits, Flags.when sig flagNV)
  | .inf neg => (f.inf neg, 0)
  | .fin neg mant exp => if mant = 0 then (f.zero neg, 0) else f.roundFin m neg mant exp false

/-- The canonical NaN with NV. -/
def FloatFmt.invalid (f : FloatFmt) : Nat × Flags := (f.nanBits, flagNV)

/-- The value is a NaN. -/
def FpNum.isNaN : FpNum → Bool
  | .nan _ => true
  | _ => false
/-- The value is a signalling NaN. -/
def FpNum.isSNaN : FpNum → Bool
  | .nan sig => sig
  | _ => false
/-- The sign of a value. -/
def FpNum.isNeg : FpNum → Bool
  | .nan _ => false
  | .inf n => n
  | .fin n _ _ => n
/-- The value is a zero. -/
def FpNum.isZero : FpNum → Bool
  | .fin _ m _ => m == 0
  | _ => false
/-- The value with its sign inverted. -/
def FpNum.negate : FpNum → FpNum
  | .nan sg => .nan sg
  | .inf n => .inf !n
  | .fin n m e => .fin (!n) m e

/-- A finite value as a multiple of 2^e, where `e` is at most its exponent. -/
def finAt (neg : Bool) (mant : Nat) (exp e : Int) : Int :=
  let v : Int := ((mant * 2 ^ (exp - e).toNat : Nat) : Int)
  if neg then -v else v

/-- The exact sum of two values that are no NaN; none for infinities of opposite sign. A sum of zero takes the sign
that R61 gives it. -/
def FpNum.add (rm : Nat) : FpNum → FpNum → Option FpNum
  | .inf a, .inf b => if a = b then some (.inf a) else none
  | .inf a, _ => some (.inf a)
  | _, .inf b => some (.inf b)
  | .fin na ma ea, .fin nb mb eb =>
    let e := min ea eb
    let v := finAt na ma ea e + finAt nb mb eb e
    if v = 0 then some (.fin (if ma = 0 && mb = 0 && na == nb then na else rm = 3) 0 e)
    else some (.fin (v < 0) v.natAbs e)
  | a, _ => some a

/-- The exact product of two values that are no NaN; none for 0 times infinity. -/
def FpNum.mul : FpNum → FpNum → Option FpNum
  | .inf a, .inf b => some (.inf (a != b))
  | .inf a, .fin n m _ => if m = 0 then none else some (.inf (a != n))
  | .fin n m _, .inf b => if m = 0 then none else some (.inf (n != b))
  | .fin na ma ea, .fin nb mb eb => some (.fin (na != nb) (ma * mb) (ea + eb))
  | a, _ => some a

/-- Whether some of the values is a signalling NaN. -/
def snanFlag (xs : List FpNum) : Flags := Flags.when (xs.any FpNum.isSNaN) flagNV

/-- Round(x + y) (R61, R94). -/
def FloatFmt.add (f : FloatFmt) (m : Mode) (x y : FpNum) : Nat × Flags :=
  if x.isNaN || y.isNaN then (f.nanBits, snanFlag [x, y])
  else match x.add m.rm y with
    | none => f.invalid
    | some z => f.round m z

/-- Round(x * y). -/
def FloatFmt.mul (f : FloatFmt) (m : Mode) (x y : FpNum) : Nat × Flags :=
  if x.isNaN || y.isNaN then (f.nanBits, snanFlag [x, y])
  else match x.mul y with
    | none => f.invalid
    | some z => f.round m z

/-- Round(x * y + z) with an exact product (R95). -/
def FloatFmt.fma (f : FloatFmt) (m : Mode) (x y z : FpNum) : Nat × Flags :=
  let invalidProduct := !x.isNaN && !y.isNaN && (x.mul y).isNone
  if invalidProduct then f.invalid
  else if x.isNaN || y.isNaN || z.isNaN then (f.nanBits, snanFlag [x, y, z])
  else match x.mul y with
    | none => f.invalid
    | some p => match p.add m.rm z with
      | none => f.invalid
      | some r => f.round m r

/-- Round(x / y) (R94). -/
def FloatFmt.div (f : FloatFmt) (m : Mode) (x y : FpNum) : Nat × Flags :=
  if x.isNaN || y.isNaN then (f.nanBits, snanFlag [x, y])
  else
    let neg := x.isNeg != y.isNeg
    match x, y with
    | .inf _, .inf _ => f.invalid
    | .inf _, _ => (f.inf neg, 0)
    | _, .inf _ => (f.zero neg, 0)
    | .fin _ ma ea, .fin _ mb eb =>
      if mb = 0 then (if ma = 0 then f.invalid else (f.inf neg, flagDZ))
      else if ma = 0 then (f.zero neg, 0)
      else
        let n := ma * 2 ^ 192
        f.roundFin m neg (n / mb) (ea - eb - 192) (n % mb != 0)
    | _, _ => f.invalid

/-- The largest root whose square is at most `n`, from bits `b - 1` down. -/
def isqrtFrom (n : Nat) : Nat → Nat → Nat
  | 0, r => r
  | b + 1, r => isqrtFrom n b (if (r + 2 ^ b) * (r + 2 ^ b) ≤ n then r + 2 ^ b else r)

/-- The integer square root. -/
def isqrt (n : Nat) : Nat := isqrtFrom n (n.log2 / 2 + 1) 0

/-- Round(sqrt x) (R94). -/
def FloatFmt.sqrt (f : FloatFmt) (m : Mode) (x : FpNum) : Nat × Flags :=
  match x with
  | .nan sg => (f.nanBits, Flags.when sg flagNV)
  | .inf neg => if neg then f.invalid else (f.inf false, 0)
  | .fin neg mant exp =>
    if mant = 0 then (f.zero neg, 0)
    else if neg then f.invalid
    else
      let odd := exp % 2 = 1
      let n := mant * 2 ^ (if odd then 161 else 160)
      let e : Int := (if odd then exp - 1 else exp) - 160
      let r := isqrt n
      f.roundFin m false r (e / 2) (r * r != n)

/-- Whether one finite or infinite value is below another; zeros are equal. -/
def FpNum.lt : FpNum → FpNum → Bool
  | .inf a, .inf b => a && !b
  | .inf a, .fin _ _ _ => a
  | .fin _ _ _, .inf b => !b
  | .fin na ma ea, .fin nb mb eb =>
    let e := min ea eb
    decide (finAt na ma ea e < finAt nb mb eb e)
  | _, _ => false

/-- Whether two values that are no NaN are equal. -/
def FpNum.eq (a b : FpNum) : Bool := !a.isNaN && !b.isNaN && !a.lt b && !b.lt a

/-- The smaller value under R64, where -0 lies below +0. -/
def FpNum.below (a b : FpNum) : Bool := a.lt b || (a.isZero && b.isZero && a.isNeg && !b.isNeg)

/-- The bits of an operand as R64 returns it: as encoded, or under FZ the zero that a subnormal is read as. -/
def FloatFmt.asRead (f : FloatFmt) (fz : Bool) (bits : Nat) : Nat :=
  match f.decode fz bits with
  | .fin neg 0 _ => f.zero neg
  | _ => bits % 2 ^ f.width

/-- Minimum (`wantMax` false) or maximum of R64. -/
def FloatFmt.minMax (f : FloatFmt) (m : Mode) (wantMax : Bool) (a b : Nat) : Nat × Flags :=
  let x := f.decode m.fz a
  let y := f.decode m.fz b
  let fl := snanFlag [x, y]
  match x.isNaN, y.isNaN with
  | true, true => (f.nanBits, fl)
  | true, false => (f.asRead m.fz b, fl)
  | false, true => (f.asRead m.fz a, fl)
  | false, false =>
    let takeA := if wantMax then !x.below y else !y.below x
    (f.asRead m.fz (if takeA then a else b), fl)

/-! ### Special functions (R71) -/

/-- ln 2 with 320 fractional bits. -/
def ln2Fixed : Nat :=
  0xb17217f7d1cf79abc9e3b39803f2f6af40f343267298b62d8a0d175b8baafa2be7b876206debac98

/-- The terms of the series of e^y with 320 fractional bits, from term `k` on. -/
def expSeries (y : Nat) : Nat → Nat → Nat → Nat
  | 0, _, _ => 0
  | n + 1, k, t => t + expSeries y n (k + 1) (t * y / 2 ^ 320 / k)

/-- 2^fr with 320 fractional bits, for a fraction with 320 bits. -/
def exp2Fixed (fr : Nat) : Nat := expSeries (fr * ln2Fixed / 2 ^ 320) 72 1 (2 ^ 320)

/-- Round(2^x) for a finite x. -/
def FloatFmt.exp2Fin (f : FloatFmt) (m : Mode) (neg : Bool) (mant : Nat) (exp : Int) : Nat × Flags :=
  if mant = 0 then f.roundFin m false 1 0 false
  else if (mant.log2 : Int) + exp > 8 then f.roundFin m false 1 (if neg then -1000 else 1000) true
  else
    let v : Int := finAt neg mant exp (min exp 0)
    let den : Nat := 2 ^ (-(min exp 0)).toNat
    let i : Int := v / (den : Int)
    let r := (v % (den : Int)).toNat
    if r = 0 then f.roundFin m false 1 i false
    else f.roundFin m false (exp2Fixed (r * 2 ^ 320 / den)) (i - 320) true

/-- The next bits of log2 y for y in [1, 2) with 320 fractional bits. -/
def log2Bits : Nat → Nat → Nat → Nat
  | 0, _, acc => acc
  | n + 1, y, acc =>
    let z := y * y / 2 ^ 320
    if 2 ^ 321 ≤ z then log2Bits n (z / 2) (2 * acc + 1) else log2Bits n z (2 * acc)

/-- Round(log2 x) for a positive finite x. -/
def FloatFmt.log2Fin (f : FloatFmt) (m : Mode) (mant : Nat) (exp : Int) : Nat × Flags :=
  let k := mant.log2
  let e : Int := (k : Int) + exp
  if mant = 2 ^ k then
    if e = 0 then (f.zero false, 0) else f.roundFin m (e < 0) e.natAbs 0 false
  else
    let v : Int := e * (2 ^ 128 : Nat) + (log2Bits 128 (mant * 2 ^ 320 / 2 ^ k) 0 : Nat)
    if 0 ≤ v then f.roundFin m false v.toNat (-128) true else f.roundFin m true (-v - 1).toNat (-128) true

/-- VEXP2's element function (R71). -/
def FloatFmt.exp2 (f : FloatFmt) (m : Mode) : FpNum → Nat × Flags
  | .nan sg => (f.nanBits, Flags.when sg flagNV)
  | .inf neg => if neg then (f.zero false, 0) else (f.inf false, 0)
  | .fin neg mant exp => f.exp2Fin m neg mant exp

/-- VLOG2's element function (R71). -/
def FloatFmt.log2 (f : FloatFmt) (m : Mode) : FpNum → Nat × Flags
  | .nan sg => (f.nanBits, Flags.when sg flagNV)
  | .inf neg => if neg then f.invalid else (f.inf false, 0)
  | .fin neg mant exp =>
    if mant = 0 then (f.inf true, flagDZ) else if neg then f.invalid else f.log2Fin m mant exp

/-- VRCP's element function (R71). -/
def FloatFmt.rcp (f : FloatFmt) (m : Mode) : FpNum → Nat × Flags
  | .nan sg => (f.nanBits, Flags.when sg flagNV)
  | .inf neg => (f.zero neg, 0)
  | .fin neg mant exp =>
    if mant = 0 then (f.inf neg, flagDZ) else f.roundFin m neg (2 ^ 192 / mant) (-exp - 192) (2 ^ 192 % mant != 0)

/-- VRSQ's element function (R71). -/
def FloatFmt.rsq (f : FloatFmt) (m : Mode) : FpNum → Nat × Flags
  | .nan sg => (f.nanBits, Flags.when sg flagNV)
  | .inf neg => if neg then f.invalid else (f.zero false, 0)
  | .fin neg mant exp =>
    if mant = 0 then (f.inf neg, flagDZ)
    else if neg then f.invalid
    else
      let odd := exp % 2 = 1
      let d := if odd then 2 * mant else mant
      let e : Int := (if odd then exp - 1 else exp) / 2
      let r := isqrt (2 ^ 256 / d)
      f.roundFin m false r (-e - 128) (r * r * d != 2 ^ 256)

/-! ### Tapered formats (R58 to R60) -/

/-- The length of the run of equal bits at the top of an `n`-bit code. -/
def topRun (b : Bool) (v : Nat) : Nat → Nat
  | 0 => 0
  | n + 1 => if v.testBit n == b then 1 + topRun b v n else 0

/-- The value of a positive magnitude code of `m` bits: significand and exponent (R58). -/
def taperedMag (m v : Nat) : Nat × Int :=
  let one := v.testBit (m - 1)
  let l := topRun one v m
  let k : Int := if one then (l : Int) - 1 else -(l : Int)
  let left := m - l - 1
  let e := if left = 0 then 0 else v / 2 ^ (left - 1) % 2
  let fb := left - 1
  (2 ^ fb + v % 2 ^ fb, 2 * k + (e : Int) - (fb : Int))

/-- The value of a tapered code of `n` bits; none is NaR (R58). -/
def taperedDecode (n code : Nat) : Option FpNum :=
  let neg := code / 2 ^ (n - 1) % 2 == 1
  let v := code % 2 ^ (n - 1)
  if v = 0 then (if neg then none else some (.fin false 0 0))
  else let (mant, exp) := taperedMag (n - 1) v; some (.fin neg mant exp)

/-- NaR (R58). -/
def taperedNaR (n : Nat) : Nat := 2 ^ (n - 1)

/-- The place of a positive value among the codes of `m` bits: the largest code not above it, from bit `b` down. -/
def taperedFloor (m : Nat) (mant : Nat) (exp : Int) : Nat → Nat → Nat
  | 0, c => c
  | b + 1, c =>
    let (cm, ce) := taperedMag m (c + 2 ^ b)
    taperedFloor m mant exp b (if (FpNum.fin false mant exp).lt (.fin false cm ce) then c else c + 2 ^ b)

/-- The conversion of R60 into a tapered format of `n` bits. -/
def taperedRound (n : Nat) (x : FpNum) : Nat × Flags :=
  match x with
  | .nan _ => (taperedNaR n, flagNV)
  | .inf _ => (taperedNaR n, flagNV)
  | .fin neg mant exp =>
    let m := n - 1
    let sign := if neg then 2 ^ m else 0
    let v : FpNum := .fin false mant exp
    let (bm, be) := taperedMag m (2 ^ m - 1)
    let (sm, se) := taperedMag m 1
    if mant = 0 then (0, 0)
    else if FpNum.lt (.fin false bm be) v then (2 ^ m - 1 + sign, flagOF ||| flagNX)
    else if !(FpNum.lt (.fin false sm (se - 1)) v) then (0, flagUF ||| flagNX)
    else if v.lt (.fin false sm se) then (1 + sign, flagUF ||| flagNX)
    else
      let c := taperedFloor m mant exp m 0
      let (cm, ce) := taperedMag m c
      if v.eq (.fin false cm ce) then (c + sign, 0)
      else
        let (dm, de) := taperedMag m (c + 1)
        let e := min ce de
        let mid : FpNum := .fin false (cm * 2 ^ (ce - e).toNat + dm * 2 ^ (de - e).toNat) (e - 1)
        let up := mid.lt v || (v.eq mid && c % 2 == 1)
        ((if up then c + 1 else c) + sign, flagNX)

end Sys2Proof.Machine
end

