-- ==== Sys2Proof/Machine/Gateway.lean ====
section
/-! DEFINITION. Where an agent's access lands on this device (R155, R209 to R214, R231), and the sending side of the
rhizome fabric: routes, flows, packets and what their failure does to those who sent them (R336 to R344). -/

namespace Sys2Proof.Machine

/-! ### Exposure windows and slice banks (R209 to R214) -/

/-- An exposure window covers `n` bytes from a local offset, and for a load or AMO has its RD bit (R211). -/
def windowCovers (w : Word) (l n : Nat) (rd : Bool) : Bool :=
  let v := w.toNat
  let lo := bitsOf v 18 5 * 32
  let len := bitsOf v 34 21 * 32
  len ≠ 0 && lo ≤ l && l + n ≤ lo + len && l + n ≤ 0x60000 && (!rd || w.getLsbD 19)

/-- An open window of one frame resident on a core covers an access (R209). -/
def State.exposed (s : State) (core l n : Nat) (rd : Bool) : Bool :=
  [0, 1, 2, 3].any fun k =>
    let f := s.frameAt (core * 4 + k)
    f.status != .empty && f.windowsOpen && f.expw.toList.any (windowCovers · l n rd)

/-- A bank of a slice is in scratch mode and assigned to a partition (R214). -/
def State.scratchBank (s : State) (key : Nat) (part : BitVec 6) : Bool :=
  let x := s.sliceAt (sliceOfKey key)
  let b := offOfKey key / 2 ^ 18
  x.mode.toList[b]? == some .scratch && x.bankPart.toList[b]? == some part

/-- Who makes an access that is not a frame's own: an ASID, a partition, U or S, and the core whose scratchpad it may
reach without a window. -/
structure Actor where
  asid : BitVec 16
  part : BitVec 6
  user : Bool
  core : Option Nat

/-- The home of one byte of an actor's access, or the cause that refuses it (R155, R209, R214, R231). -/
def State.reach (s : State) (x : Actor) (a : Word) (rd wr : Bool) : Except Nat Nat :=
  let k := keyOf a
  if !addrForm a || !s.isLocal a then .error 5
  else match regionOf k with
    | 0 =>
      match s.region0Agent x.asid.toNat k x.user { r := rd, w := wr } with
      | .error c => .error c
      | .ok (pa, kind) => if kind = 0 || (kind = 1 && !wr) then .ok pa else .error 7
    | 1 =>
      if x.core = some (coreOfKey k) then
        (if x.user && 0x60000 ≤ localOfKey k then .error 6 else .ok k)
      else if s.exposed (coreOfKey k) (localOfKey k) 1 rd then .ok k else .error 6
    | 2 => if s.scratchBank k x.part then .ok k else .error 6
    | _ => .error 6

/-- The homes of `n` bytes from an address, byte by byte, or the first refusal. -/
def State.reachBytes (s : State) (x : Actor) (a : Word) (rd wr : Bool) : Nat → Except Nat (List Nat)
  | 0 => .ok []
  | n + 1 =>
    match s.reach x a rd wr with
    | .error c => .error c
    | .ok k => match s.reachBytes x (a + 1) rd wr n with
      | .error c => .error c
      | .ok ks => .ok (k :: ks)

/-- The homes of an access of `n` bytes, or its refusal: in another core's scratchpad one window of one frame must hold every
byte (R209). -/
def State.reachAll (s : State) (x : Actor) (a : Word) (rd wr : Bool) (n : Nat) : Except Nat (List Nat) :=
  let k := keyOf a
  if addrForm a && s.isLocal a && regionOf k == 1 && x.core != some (coreOfKey k) then
    (if s.exposed (coreOfKey k) (localOfKey k) n rd then .ok ((List.range n).map (k + ·)) else .error 6)
  else s.reachBytes x a rd wr n

/-- Bytes at homes. -/
def State.gather (s : State) (ks : List Nat) : List Byte := ks.map s.mem.get
/-- Bytes written at homes. -/
def State.scatter (s : State) (ks : List Nat) (bs : List Byte) : State :=
  (ks.zip bs).foldl (fun t e => t.homeWrite e.1 [e.2]) s

/-- Homes read by an engine: a read of device memory fills the line in its home slice (R212). -/
def State.readTouched (s : State) (ks : List Nat) : State :=
  ((ks.filter fun k => regionOf k == 0).map (· / 256)).eraseDups.foldl (fun t n => t.touch (n * 256) .normal) s

/-- An agent at a node has read bytes at some homes by loads, one for each granule (R220, R224). -/
def State.agentRead (s : State) (node : Nat) (ks : List Nat) : State :=
  ((ks.map (· / 32)).eraseDups).foldl (fun t n => t.roundTrip node (homeNode (n * 32)) 1 2) (s.readTouched ks)

/-- An agent without a cache of translations has read `n` bytes from an address, or found that it may not. -/
def State.agentFetched (s : State) (node : Nat) (x : Actor) (a : Word) (n : Nat) : State :=
  let u := s.spanLooked node x.asid a n
  match s.reachAll x a true false n with
  | .ok ks => u.agentRead node ks
  | .error _ => u

/-! ### The pod (R336, R337) -/

/-- D, the pod's dimensions. -/
def State.podDims (s : State) : Nat := s.dev.dims.toNat
/-- k_i, the size of a dimension. -/
def State.podSize (s : State) (i : Nat) : Nat := (s.dev.k.toList[i]?.getD 0).toNat
/-- The number of devices before dimension `i` steps once. -/
def State.podStride (s : State) (i : Nat) : Nat := ((List.range i).map s.podSize).foldl (· * ·) 1
/-- The devices of the pod. -/
def State.podDevices (s : State) : Nat := s.podStride s.podDims
/-- A device's coordinate. -/
def State.coordOf (s : State) (dev i : Nat) : Nat := dev / s.podStride i % s.podSize i
/-- P, the ports of a link group. -/
def State.groupPorts (s : State) : Nat := 24 / (2 * s.podDims)

/-- The port by which a packet leaves for a device on a path (R337): the first dimension of the rotation in which it
must travel, the shorter way round. -/
def State.portFor (s : State) (dst rot port : Nat) : Option Nat :=
  let d := s.podDims
  match ((List.range d).map fun j => (rot + j) % d).find? fun i => s.coordOf dst i != s.coordOf s.devNum i with
  | none => none
  | some i =>
    let k := s.podSize i
    let dist := (s.coordOf dst i + k - s.coordOf s.devNum i) % k
    some (port * (2 * d) + 2 * i + (if 2 * dist ≤ k then 0 else 1))

/-- A fabric port's state. -/
def State.portAt (s : State) (n : Nat) : Port := s.ports.toList[n]?.getD {}
/-- The state with a port replaced. -/
def State.putPort (s : State) (n : Nat) (p : Port) : State :=
  if h : n < 24 then { s with ports := s.ports.set n p h } else s

/-- The flow endpoint of a flow at its destination (R341). -/
def flowEndpoint (src gateway : Nat) : Nat := (src + gateway) % 24

/-- A request packet of this device for another (R338); its path is ROT 0 with the PORT of R337. -/
def State.packet (s : State) (dst sep kind cls target : Nat) (payload : List Byte) : Packet :=
  { target := .ofNat 46 target, dst := .ofNat 18 dst, src := s.dev.dev, sep := .ofNat 12 sep, kind := .ofNat 4 kind,
    cls := .ofNat 2 cls, mc := false, rot := 0, port := .ofNat 4 ((Config.portHash sep dst).toNat % max 1 s.groupPorts),
    seq := 0, rtx := false, payload := payload, len := .ofNat 8 ((payload.length + 31) / 32) }

/-- The beats of a packet on a link: a header, its payload and a trailer in 32-byte units (R336, R338). -/
def packetBeats (p : Packet) : Nat := 1 + (p.payload.length + 31) / 32

/-- The beats of a class that a link's sender may still send (R222, R340). -/
def Port.allowance (x : Port) (c : Fin 4) : BitVec 16 := x.theirs[c] + Config.fabricSlots - x.sentBeats[c]

/-- A packet may leave: its class has slots at the receiver, and the replay buffer of 2,048 beats has room for its copy (R340). -/
def Port.hasRoom (x : Port) (p : Packet) : Bool :=
  packetBeats p ≤ (x.allowance p.cls.toFin).toNat &&
  (x.replayBuffer.map fun e => packetBeats e.2).foldl (· + ·) (packetBeats p) ≤ 2048

/-- The trailer that a packet leaves with (R340): LSEQ counts from 1 after training. -/
def Port.trailer (x : Port) (tail : Bool) (lseq : BitVec 16) : Trailer :=
  { lseq := lseq, lack := x.lack, slots := x.freed, errorTail := tail }

/-- A packet leaves by a link: a copy stays in the replay buffer. -/
def Port.push (x : Port) (p : Packet) : Port :=
  let c : Fin 4 := p.cls.toFin
  { x with
    sendSeq := x.sendSeq + 1
    outQueue := x.outQueue ++ [{ p with trailer := x.trailer p.trailer.errorTail (x.sendSeq + 1) }]
    replayBuffer := x.replayBuffer ++ [(x.sendSeq + 1, p)]
    sentBeats := x.sentBeats.set c.val (x.sentBeats[c] + .ofNat 16 (packetBeats p)) c.isLt
    reported := x.freed }

/-- The packets that wait for slots leave while they may: one behind an earlier one of its class and lane waits with it (R337,
R340). -/
def Port.flush (x : Port) : Port :=
  x.waiting.foldl (fun y p =>
    if (y.waiting.any fun q => q.cls == p.cls && q.lane == p.lane) || !y.hasRoom p then { y with waiting := y.waiting ++ [p] }
    else y.push p) { x with waiting := [] }

/-- The ports with one replaced. -/
def setPort (v : Vector Port 24) (n : Nat) (p : Port) : Vector Port 24 := if h : n < 24 then v.set n p h else v

/-- The packet as it leaves by a port: in the second lane of its class once it crosses from coordinate k_i - 1 to 0 (R337). -/
def State.laned (s : State) (n : Nat) (p : Packet) : Packet :=
  let g := n % (2 * s.podDims)
  let i := g / 2
  { p with lane := p.lane || (g % 2 == 0 && s.coordOf s.devNum i + 1 == s.podSize i) }

/-- A packet sent on a port. What reaches a failed port is discarded (R340). -/
def State.transmitOn (s : State) (n : Nat) (p : Packet) : State :=
  { s with ports :=
      let x := s.portAt n
      if x.up && !x.failed then setPort s.ports n { x with waiting := x.waiting ++ [s.laned n p] }.flush else s.ports }

/-- A packet sent on the port of its route (R337). -/
def State.transmit (s : State) (p : Packet) : State :=
  match s.portFor p.dst.toNat p.rot.toNat p.port.toNat with
  | none => s
  | some n => s.transmitOn n p

/-- A flow's sending side. -/
def State.flowOut? (s : State) (gw dst cls : Nat) : Option FlowOut :=
  s.flowsOut.find? fun f => f.gateway == gw && f.dst == dst && f.cls == cls

/-- A flow's sending side replaced. -/
def State.putFlowOut (s : State) (f : FlowOut) : State :=
  { s with flowsOut := f :: s.flowsOut.filter fun g => !(g.gateway == f.gateway && g.dst == f.dst && g.cls == f.cls) }

/-- A packet's paths in the order in which a flow tries them: every PORT of its ROT, then the next ROT (R342). -/
def State.pathsFrom (s : State) (rot port : Nat) : List (Nat × Nat) :=
  let d := s.podDims
  let g := s.groupPorts
  (List.range d).flatMap fun i => (List.range g).map fun j => ((rot + i) % d, (port + j) % g)

/-- A path's number in a flow's list of failed ones. -/
def pathCode (rot port : Nat) : Nat := rot * 16 + port

/-- A port carries packets. -/
def State.portWorks (s : State) (n : Nat) : Bool := (s.portAt n).up && !(s.portAt n).failed

/-- The port by which a path leaves this device carries packets. -/
def State.pathWorks (s : State) (dst : Nat) (e : Nat × Nat) : Bool :=
  match s.portFor dst e.1 e.2 with
  | some n => s.portWorks n
  | none => false

/-- The packet on the first path that has not failed for its flow; of those, where it is resent, the first that leaves by a port
that carries packets (R342). -/
def State.onPath (s : State) (f : FlowOut) (p : Packet) (again : Bool := false) : Option Packet :=
  match (s.pathsFrom p.rot.toNat p.port.toNat).find? fun q =>
      !f.failedPorts.contains (pathCode q.1 q.2) && (!again || s.pathWorks p.dst.toNat q) with
  | some (r, q) => some { p with rot := .ofNat 3 r, port := .ofNat 4 q }
  | none => none

/-! ### What a failed access does to its sender (R344, R348) -/

/-- A block of a core's copy engine ends with an error (R282, R348): the first failure stands. -/
def State.failBlock (s : State) (core id : Nat) (cause : Nat) (a : Word) (elem : Nat) (part : Bool)
    (member : List Nat := []) : State :=
  let c := s.coreAt core
  s.putCore core { c with fifo := c.fifo.map fun b =>
    if b.id = id then
      (if b.failed.isNone then
        { b with failed := some (.ofNat 8 cause, a), failElem := elem, failPart := part, bad := b.bad ++ member }
      else { b with bad := b.bad ++ member })
    else b }

/-- Where the answer to a request on another device goes. -/
def RemoteReq.req (q : RemoteReq) : Req :=
  { who := q.who, rk := q.kind, d := q.d, vd := q.vd, addr := q.addr, lock := q.lock }

/-- What a barrier's gateway holds of its collective (R351). -/
def State.combineAt (s : State) (cell : Nat) : Combine := (tblGet? s.combines cell).getD {}

/-- A request on another device that was refused or whose destination is unreachable, answered to who asked: INVALID for a moved
waiter that finds no lock (R182, R344). -/
def State.requestFailed (s : State) (q : RemoteReq) (cause : Nat) : State :=
  s.deliver q.req
    (if q.lock ≠ 0 && cause ≠ 0x13 then { status := 9 } else { status := 2, trap := some (.ofNat 8 cause, q.addr) })

/-- A refused or failed packet's effect on what sent it (R344): a trap or a FABRIC for a waiting group, a refusal for a
posted access, an error for a transfer; a lost add is a machine check (R189, R280), or for a refused card a count (R139); a
descriptor or a refire card that cannot be read (R193, R352, R373); without its contribution an arrival fails. -/
def State.remoteFailed (s : State) (r : Remote) (cause : Nat) : State :=
  let s := { s with remotes := s.remotes.erase r }
  match r.what with
  | .load f h d _ _ _ => s.send (.load f h d 0 (some (.ofNat 8 cause, r.addr)))
  | .posted f h e => s.send (.refusal f h e (.ofNat 8 cause))
  | .object q => s.requestFailed q cause
  | .data core block elem => s.failBlock core block (if cause = 0x13 then 1 else cause) r.addr elem true [r.dst]
  | .copy core block unit _ _ =>
    let c := s.coreAt core
    let e : Nat × Word := (if cause = 0x13 then 5 else cause, r.addr)
    s.putCore core { c with fifo := c.fifo.map fun b =>
      if b.id = block then { b with refusals := (unit, e) :: b.refusals.filter (·.1 != unit) } else b }
  | .cvRelease cell who => s.send (.cvFailed cell who)
  | .clean h => s.send (.cleaned h 0)
  | .add .. | .settle _ => s.machineCheck 5 (r.gateway % 6) (r.gateway / 6) r.addr.toNat 0 0
  | .refusedAdd p => s.putPart p { s.part p with refused := (s.part p).refused + 1 }
  | .desc cell _ => { s with combines := tblPut s.combines cell { s.combineAt cell with descFailed := true } }
  | .card cell version _ =>
    ({ s with msgs := s.msgs.filter fun m => match m with
        | .refire c v _ _ _ _ _ => !(c == cell && v == version)
        | _ => true } : State).send (.refireLost cell version)
  | .contribution tag _ =>
    match s.remotes.find? fun x => x.tag == tag && (match x.what with | .object _ => true | _ => false) with
    | some x =>
      let s1 := { s with remotes := s.remotes.erase x }
      (match x.what with | .object q => s1.requestFailed q cause | _ => s1)
    | none => s
  | .quiet => s

/-! ### Sending (R341) -/

/-- A flow numbers and sends its waiting packets while fewer than 1,024 are unacknowledged (R341). -/
def State.pump : Nat → State → Nat → Nat → Nat → State
  | 0, s, _, _, _ => s
  | n + 1, s, gw, dst, cls =>
    match s.flowOut? gw dst cls with
    | none => s
    | some f =>
      match f.queued with
      | [] => s
      | p :: rest =>
        if f.purging || 1024 ≤ f.unacked.length then s
        else
          match s.onPath f p with
          | none => s
          | some q =>
            State.pump n ((s.putFlowOut { f with queued := rest, unacked := f.unacked ++ [q] }).transmit q) gw dst cls

/-- A packet enters its flow at its ingress gateway with the next SEQ, and what it was sent for is recorded; control
packets go out unnumbered. For an unreachable flow it fails at once (R341, R342, R344). -/
def State.inject (s : State) (p : Packet) (addr : Word) (what : RemoteWhat) (tag : Nat := 0) : State :=
  let cls := p.cls.toNat
  if cls = 3 then s.transmit p
  else
    let gw := ingressOf p.sep.toNat
    let dst := p.dst.toNat
    let f := (s.flowOut? gw dst cls).getD { dst := dst, cls := cls, gateway := gw }
    let r : Remote := { gateway := gw, dst := dst, cls := cls, seq := f.nextSeq, tag := tag, addr := addr,
                        what := what }
    let s1 := { s with remotes := s.remotes ++ [r] }
    if f.unreachable then s1.remoteFailed r 0x13
    else
      State.pump 1 (s1.putFlowOut { f with nextSeq := f.nextSeq + 1, queued := f.queued ++ [{ p with seq := f.nextSeq }] })
        gw dst cls

/-- The receiving side of a flow (R341). -/
def State.flowIn (s : State) (src gw cls : Nat) : FlowIn :=
  (s.flowsIn.find? fun f => f.src == src && f.gateway == gw && f.cls == cls).getD { src := src, cls := cls, gateway := gw }

/-- The receiving side of a flow replaced. -/
def State.putFlowIn (s : State) (f : FlowIn) : State :=
  { s with flowsIn := f :: s.flowsIn.filter fun g => !(g.src == f.src && g.gateway == f.gateway && g.cls == f.cls) }

/-- A flow endpoint has delivered a SEQ: it lies behind the next one, or has come ahead of it (R341). -/
def FlowIn.delivered (f : FlowIn) (q : BitVec 11) : Bool := 1024 ≤ (q - f.expect).toNat || f.seen.contains q

/-- A packet numbered in its flow and kept until it is acknowledged, without being sent: a multicast copy goes by the tree, and
the flow resends this one if its path fails (R341, R342, R349). The SEQ and the state. -/
def State.reserveSeq (s : State) (p : Packet) (addr : Word) (what : RemoteWhat) : BitVec 11 × State :=
  let gw := ingressOf p.sep.toNat
  let dst := p.dst.toNat
  let cls := p.cls.toNat
  let f := (s.flowOut? gw dst cls).getD { dst := dst, cls := cls, gateway := gw }
  let r : Remote := { gateway := gw, dst := dst, cls := cls, seq := f.nextSeq, addr := addr, what := what }
  let s1 := { s with remotes := s.remotes ++ [r] }
  if f.unreachable then (f.nextSeq, s1.remoteFailed r 0x13)
  else (f.nextSeq, s1.putFlowOut { f with nextSeq := f.nextSeq + 1, unacked := f.unacked ++ [{ p with seq := f.nextSeq }] })

/-- The bytes of multicast packets that a gateway holds for branches (R349). -/
def State.reserveUsed (s : State) (gw : Nat) : Nat :=
  (s.msgs.map fun m => match m with
    | .fork p _ g | .branch p g => if g = gw then p.payload.length else 0
    | _ => 0).foldl (· + ·) 0

/-- A gateway's multicast reserve of 256 KiB has room for so many bytes more (R349). -/
def State.reserveFree (s : State) (gw n : Nat) : Bool := s.reserveUsed gw + n ≤ 262144

/-- The branch that a held multicast packet serves next: the members, its first among them, that are reached by one port, and
those that stay (R349). -/
def State.nextBranch (s : State) (p : Packet) : List (Nat × BitVec 11) × List (Nat × BitVec 11) :=
  match p.members with
  | [] => ([], [])
  | (m, _) :: _ =>
    let by_ (e : Nat × BitVec 11) : Bool :=
      s.portFor e.1 p.rot.toNat p.port.toNat == s.portFor m p.rot.toNat p.port.toNat
    (p.members.filter by_, p.members.filter fun e => !by_ e)

end Sys2Proof.Machine
end

