-- ==== Sys2Proof/Machine/Engine.lean ====
section
/-! DEFINITION. The object engine: every Engine.Step of R170 to R189, the agents' requests that steps send (R159, R248,
R373), collectives at a barrier (R350 to R352), and the trace of steps (R370, R371). -/

namespace Sys2Proof.Machine

/-- What is asked of an engine: the requests of pages 5 and 6, and those that engines and OKILL send (R159, R182,
R183). -/
inductive ObjOp where
  | init (ty : Nat) (image : List Byte) (asid : BitVec 16)
  | destroy
  | query
  | cntAdd (x : Word) (marks : Nat)
  | cntWait (t : Word) (nw : Bool)
  | cntZero
  | arrive (waits : Bool)
  | barWait (p : BitVec 32)
  | barAdj (x : Word)
  | acquire (nw : Bool)
  | release
  | push (nw : Bool) (data : List Byte)
  | pop (nw : Bool)
  | cvWait
  | signal
  | broadcast
  | pub
  | fin
  | rsv
  | stop
  | sub (opt : Word)
  | ack (x : Word)
  | unsub (last : Word)
  | cvRelease
  | moved
  | abandon
  | removal
  | abortCell
  | combine (data : List Byte) (shape : Option (Nat × (Nat × Nat)))
  | complete (status : Nat) (data : List Byte)
  | unreleased (status : Nat)
  | discharge (version : Nat)
  deriving DecidableEq, Repr

/-- The type of cell that a request needs; none for those that take any (R166, R173). -/
def ObjOp.needs : ObjOp → Option Nat
  | .init .. | .destroy | .query | .removal => none
  | .cntAdd .. | .cntWait .. | .cntZero => some 1
  | .arrive _ | .barWait _ | .barAdj _ | .abortCell | .combine .. | .complete .. => some 2
  | .acquire _ | .release | .cvRelease | .moved | .abandon => some 3
  | .push .. | .pop _ => some 4
  | .cvWait | .signal | .broadcast | .unreleased _ => some 5
  | .pub | .fin | .rsv | .stop | .sub _ | .ack _ | .unsub _ | .discharge _ => some 6

/-- The bytes that a request carries beside its operands. -/
def ObjOp.payload : ObjOp → Nat
  | .init _ image _ => image.length
  | .push _ data | .combine data _ => data.length
  | _ => 0

/-! ### Addresses that cells hold (R373) -/

/-- Where an address held by a cell leads: a cell of this device, another device, or nowhere usable. -/
inductive Target where
  | here (key : Nat)
  | away
  | bad
  deriving DecidableEq, Repr

/-- The cell that an address names under an ASID, as a U access that needs W (R373). -/
def State.agentTarget (s : State) (asid : BitVec 16) (a : Word) : Target :=
  if !addrForm a then .bad
  else if !s.isLocal a then .away
  else match regionOf (keyOf a) with
    | 0 =>
      match s.region0Agent asid.toNat (keyOf a) true { w := true } with
      | .ok (pa, 1) => if pa % 32 = 0 then .here pa else .bad
      | _ => .bad
    | 3 => .here (keyOf a)
    | _ => .bad

/-- The creator ASID of a cell (R373). -/
def State.creatorAsid (s : State) (cell : Nat) : BitVec 16 := (tblGet? s.cellAsid cell).getD 0

/-- The waiter id of whoever stands in a list or asks (R160). -/
def Waiter.id : Waiter → Nat
  | .ctx id => id
  | .remote _ _ _ id _ => id
  | .child cell => cell
  | .card job => job
  | .xfer _ block => block
  | .drain job => job
  | .refire cell _ => cell

/-- The global address of a cell of this device, by its home address: how a held-lock list and a watch name it, also where the
request named it by 0x3FFFF or, in region 0, by another virtual address (log entry 32). -/
def State.cellAddr (s : State) (cell : Nat) : Word := .ofNat 64 (s.devNum * 2 ^ 46 + cell)

/-- The packet of an object request for another device (R338; its layout is log entry 12): the request's code, the
waiter id, the tag, two operands, whether an agent acts on its own behalf, and a payload. -/
def objectPayload (code id tag x y : Nat) (data : List Byte) (agent : Bool := false) : List Byte :=
  let beat := leBytes 1 code ++ leBytes 5 id ++ leBytes 5 tag ++ leBytes 4 y ++ leBytes 8 x ++ leBytes 1 agent.toNat ++ leBytes 8 0
  beat ++ data ++ List.replicate ((32 - data.length % 32) % 32) 0

/-- An address as it stands outside its own device (R206). -/
def State.outward (s : State) (a : Word) : Word := if s.isLocal a then .ofNat 64 (s.devNum * 2 ^ 46 + keyOf a) else a

/-- An object request sent to another device on behalf of a waiter from an endpoint, whose gateway it reaches across the mesh
(R220, R341). -/
def State.sendFrom (s : State) (sep : Nat) (who : Waiter) (a : Word) (code x y : Nat) (data : List Byte) (what : RemoteWhat) :
    State :=
  let s1 : State := { s with nextTag := (s.nextTag + 1) % 2 ^ 34 }
  (s1.crossed (endpointNode sep) (gatewayNode (ingressOf sep)) (objectFlits data.length) false).inject
    (s.packet (devOf a) sep 5 0 (keyOf a) (objectPayload code who.id s.nextTag x y data who.internal)) a what s.nextTag

/-- An object request sent to another device from the waiter's own endpoint. -/
def State.sendObject (s : State) (who : Waiter) (a : Word) (code x y : Nat) (data : List Byte) (what : RemoteWhat) :
    State := s.sendFrom (who.endpoint s) who a code x y data what

/-- OP, FMT and N of a collective, as a child's arrival carries them (R350). -/
abbrev Shape := Option (Nat × (Nat × Nat))

/-- An arrival with a contribution sent to another device: the contribution as combine data, of which a packet holds 128 beats, then
the request that names it by its SEQ and says how many beats it has (R338, R339; log entry 12). -/
def State.sendCombine (s : State) (who : Waiter) (a : Word) (data : List Byte) (shape : Shape) (what : RemoteWhat) : State :=
  let sep := who.endpoint s
  let seq := match s.flowOut? (ingressOf sep) (devOf a) 2 with | some f => f.nextSeq.toNat | none => 0
  let s1 := if data.isEmpty then s else s.inject (s.packet (devOf a) sep 11 2 (keyOf a) (data.take 4096)) a (.contribution s.nextTag who)
  let bs := match shape with | some (op, fmt, n) => leBytes 1 op ++ leBytes 1 fmt ++ leBytes 2 n | none => []
  s1.sendObject who a 0x38 seq (data.length / 32 + if shape.isSome then 2 ^ 16 else 0) bs what

/-- A word of the MSI-X table by its offset in eights: the mask bit, bit 32 of an entry's second word, is set until it
is written (log entry 17). -/
def State.msixWord (s : State) (i : Nat) : Word := (tblGet? s.msixTable i).getD (if i % 2 = 1 then 0x100000000 else 0)

/-- A vector is masked. -/
def State.msixMasked (s : State) (v : Nat) : Bool := (s.msixWord (2 * v + 1)).getLsbD 32

/-- An MSI-X message with a vector: masked, its pending bit is set; out of range, it is counted in HOSTERR (R360). -/
def State.msix (s : State) (v : Nat) : State :=
  if 2048 ≤ v then { s with dev := { s.dev with hosterr := s.dev.hosterr + 1 } }
  else if s.msixMasked v then
    { s with msixPending := if s.msixPending.contains v then s.msixPending else s.msixPending ++ [v] }
  else { s with hostOut := s.hostOut ++ [.msix v] }

/-! ### Counters (R174, R323) -/

/-- Engine.Step(CNTADD): the value, the error marks, the waiters whose condition now holds, the message. -/
def State.stepCntAdd (s : State) (cell : Nat) (x : Word) (marks : Nat) : StepResult :=
  let old := s.cellGet cell 0 8
  let flags := s.cellGet cell 10 2
  let new :=
    if flags.testBit 2 then (min (max ((old : Int) + x.toInt) 0) (2 ^ 64 - 1)).toNat else (old + x.toNat) % 2 ^ 64
  let s1 := s.cellPut cell 0 8 new
  let s2 :=
    if 0 < marks then
      (s1.cellPut cell 12 4 (min (s.cellGet cell 12 4 + marks) (2 ^ 32 - 1))).cellPut cell 10 2 (flags ||| 2)
    else s1
  let ready := (s2.waitsOf cell).filter fun w => match w.kind with
    | .counter => decide (w.arg ≤ new)
    | .counterZero => new == 0
    | _ => false
  let s3 := s2.wakeAll ready fun _ => { value := new }
  let s4 := if flags.testBit 0 then s3.msix (s.cellGet cell 16 4) else s3
  (s4, some { value := old })

/-- Engine.Step(CNTWAIT or CNTWAIT.NW). -/
def State.stepCntWait (s : State) (r : Req) (cell : Nat) (t : Word) (nw : Bool) : StepResult :=
  let v := s.cellGet cell 0 8
  if t.toNat ≤ v then (s, some { value := v })
  else if nw then (s, some { status := 1, value := v })
  else s.parkOr (r.wait cell .counter t.toNat)

/-! ### Barriers (R175 to R178) and collectives (R350 to R352) -/

/-- The bytes of a combining barrier's descriptor: on this device read under the creator ASID; of one on another device
those that its gateway has fetched. None where it cannot be read (R350, R352, R373). -/
def State.descBytes (s : State) (cell : Nat) : Option (List Byte) :=
  let a : Word := .ofNat 64 (s.cellGet cell 24 8)
  if addrForm a && !s.isLocal a then
    let c := s.combineAt cell
    let beat (i : Nat) : List Byte := match c.desc.find? (·.1 == i) with | some e => e.2 | none => []
    let bs := ((beat 0 ++ beat 1).drop (a.toNat % 32)).take 32
    if c.descFailed || bs.length < 32 then none else some bs
  else
    let x : Actor := { asid := s.creatorAsid cell, part := 0, user := true, core := none }
    match s.reachAll x a true false 32 with
    | .error _ => none
    | .ok ks => some (s.gather ks)

/-- The descriptor of a barrier on this device as its gateway reads it (R212, R232, R373). -/
def State.descRead (s : State) (cell : Nat) : State :=
  s.agentFetched (homeNode cell) { asid := s.creatorAsid cell, part := 0, user := true, core := none } (.ofNat 64 (s.cellGet cell 24 8)) 32

/-- The descriptor of a combining barrier: OP, FMT, N and RESULT; none where it cannot be read, and `some none` where a
field is outside its limits (R350, R373). -/
def State.combineDesc (s : State) (cell : Nat) : Option (Option (Nat × (Nat × (Nat × Nat)))) :=
  (s.descBytes cell).map fun bs =>
    let op := leValue (bs.take 1)
    let fmt := leValue ((bs.drop 1).take 1)
    let n := leValue ((bs.drop 2).take 2)
    let result := leValue ((bs.drop 8).take 8)
    let size := if op = 3 then 8 + 4 * n else if fmt = 6 then 2 * n else 4 * n
    if op ≤ 3 && (if op = 3 then fmt == 8 else fmt == 4 || fmt == 6 || fmt == 8) && size ≤ 4096 &&
        leValue ((bs.drop 4).take 4) = 0 && leValue (bs.drop 16) = 0 && result % 32 = 0
      then some (op, fmt, n, result) else none

/-- The bytes that a contribution's elements take, without their padding (R350, R354). -/
def resultSize (op fmt n : Nat) : Nat := if op = 3 then 8 + 4 * n else if fmt = 6 then 2 * n else 4 * n

/-- The bytes of a contribution, in whole beats (R350). -/
def contributionSize (op fmt n : Nat) : Nat :=
  (resultSize op fmt n + 31) / 32 * 32

/-- Rounding of every combine: to nearest even, subnormals kept (R351). -/
def combineMode : Mode := { rm := 0, fz := false }
/-- One rounded sum of bit patterns. -/
def FloatFmt.sum (f : FloatFmt) (a b : Nat) : Nat := (f.add combineMode (f.decode false a) (f.decode false b)).1
/-- One rounded difference. -/
def FloatFmt.diff (f : FloatFmt) (a b : Nat) : Nat := (f.add combineMode (f.decode false a) (f.decode false b).negate).1
/-- One rounded product. -/
def FloatFmt.prod (f : FloatFmt) (a b : Nat) : Nat := (f.mul combineMode (f.decode false a) (f.decode false b)).1
/-- The larger or the smaller of two (R64). -/
def FloatFmt.pick (f : FloatFmt) (wantMax : Bool) (a b : Nat) : Nat := (f.minMax combineMode wantMax a b).1

/-- -∞ as an f32. -/
def negInf32 : Nat := 0xFF800000

/-- The factor by which RESCALE-TRIPLE scales a triple of score m1 (R351). -/
def rescaleFactor (m1 m : Nat) : Nat :=
  if m1 = negInf32 then 0 else (fF32.exp2 combineMode (fF32.decode false (fF32.diff m1 m))).1

/-- One element of SUM, MAX or MIN (R351). -/
def combineElem (op fmt a b : Nat) : Nat :=
  if fmt = 4 then
    let x : BitVec 32 := .ofNat 32 a
    let y : BitVec 32 := .ofNat 32 b
    (match op with
      | 0 => x + y
      | 1 => if x.slt y then y else x
      | _ => if y.slt x then y else x).toNat
  else
    let f := if fmt = 6 then fBf16 else fF32
    match op with
    | 0 => f.sum a b
    | 1 => f.pick true a b
    | _ => f.pick false a b

/-- Combine of R351 on two contributions of one descriptor. -/
def combineBytes (op fmt n : Nat) (acc new : List Byte) : List Byte :=
  let z := if fmt = 6 then 2 else 4
  let elem (bs : List Byte) (i : Nat) : Nat := leValue ((bs.drop (z * i)).take z)
  let body :=
    if op = 3 then
      let m1 := elem acc 0
      let m2 := elem new 0
      if m1 = negInf32 && m2 = negInf32 then leBytes 4 negInf32 ++ List.replicate (4 + 4 * n) 0
      else
        let m := fF32.pick true m1 m2
        let f1 := rescaleFactor m1 m
        let f2 := rescaleFactor m2 m
        leBytes 4 m ++ (List.range (n + 1)).flatMap fun i =>
          leBytes 4 (fF32.sum (fF32.prod (elem acc (i + 1)) f1) (fF32.prod (elem new (i + 1)) f2))
    else (List.range n).flatMap fun i => leBytes z (combineElem op fmt (elem acc i) (elem new i))
  body ++ acc.drop body.length

/-- The marks of an aborted barrier: its flag, its waiters woken ABORTED in list order (R178), its combine state gone,
an abort sent to its parent (R352). -/
def State.abortBarrier (s : State) (cell : Nat) : State :=
  let flags := s.cellGet cell 12 4
  if flags.testBit 0 then s
  else
    let phase := s.cellGet cell 8 4
    let s1 := s.cellPut cell 12 4 (flags ||| 1)
    let s2 := s1.wakeAll (s1.waitsOf cell) fun _ => { status := 4, value := phase }
    let s3 := { s2 with combines := tblDel s2.combines cell }
    let parent := s.cellGet cell 16 8
    if parent = 0 || !flags.testBit 1 then s3
    else match s3.agentTarget (s3.creatorAsid cell) (.ofNat 64 parent) with
      | .here k => (s3.agentLooked (homeNode cell) (s3.creatorAsid cell) (.ofNat 64 parent)).send (.abort k)
      | .away =>
        let a : Word := .ofNat 64 parent
        s3.sendObject (.child cell) a 0x36 0 0 [] .quiet
      | .bad => s3

/-- Complete() of R175: the result is written before any waiter is woken (R351, R354); where that write is refused the
barrier aborts (R352). The deferred arrivals are applied by `applyDeferred`. -/
def State.completePhase (s : State) (cell : Nat) (data : List Byte) : State :=
  let flags := s.cellGet cell 12 4
  let phase := (s.cellGet cell 8 4 + 1) % 2 ^ 32
  let written : Option State :=
    if !flags.testBit 1 || data.isEmpty then some s
    else match s.combineDesc cell with
      | some (some (op, fmt, n, result)) =>
        if result = 0 then some s
        else
          let x : Actor := { asid := s.creatorAsid cell, part := 0, user := true, core := none }
          let bs := data.take (resultSize op fmt n)
          match s.reachAll x (.ofNat 64 result) false true bs.length with
          | .ok ks => some ((s.spanLooked (homeNode cell) x.asid (.ofNat 64 result) bs.length).scatter ks bs)
          | .error _ => none
      | _ => none
  match written with
  | none => s.abortBarrier cell
  | some s1 =>
    let s2 := (s1.cellPut cell 8 4 phase).cellPut cell 12 4 (flags &&& 3)
    let s3 := { s2 with combines := tblDel s2.combines cell }
    let passed (w : Wait) : Bool :=
      (w.kind == .arrival || w.kind == .phase) &&
        (let d := (phase + 2 ^ 32 - w.arg % 2 ^ 32) % 2 ^ 32; 1 ≤ d && d < 2 ^ 31)
    s3.wakeAll ((s3.waitsOf cell).filter passed) fun w =>
      { value := if w.kind = .arrival then w.arg else phase,
        payload := match w.who with | .child _ | .remote .. => data | _ => [] }

/-- Finish() of R175. A combining child's accumulator goes up with its arrival and its OP, FMT and N (R350, R351). -/
def State.finishPhase (s : State) (cell : Nat) : State :=
  let flags := s.cellGet cell 12 4
  let parent := s.cellGet cell 16 8
  let s1 := s.cellPut cell 4 4 0
  let acc := (s1.combineAt cell).acc
  if parent = 0 then s1.completePhase cell (acc.getD [])
  else
    let shape : Shape := match acc, s1.combineDesc cell with
      | some _, some (some (op, fmt, n, _)) => some (op, fmt, n)
      | _, _ => none
    (s1.cellPut cell 12 4 (flags ||| 4)).send
      (.parentArrival cell (.ofNat 64 parent) (s1.creatorAsid cell) (acc.getD []) shape)

/-- A contribution taken into a barrier's accumulator: the first of a phase sets it (R351). -/
def State.contribute (s : State) (cell : Nat) (coll : Bool) (data : List Byte) : State :=
  if !coll then s
  else match s.combineDesc cell with
    | some (some (op, fmt, n, _)) =>
      let c := s.combineAt cell
      let acc := match c.acc with | none => data | some a => combineBytes op fmt n a data
      { s with combines := tblPut s.combines cell { c with acc := some acc } }
    | _ => s

/-- Arrive of R175, once the barrier is neither aborted nor awaiting its parent: the arrival is counted, and the last
one finishes the phase. -/
def State.countArrival (s : State) (r : Req) (cell : Nat) (waits coll : Bool) (data : List Byte) : StepResult :=
  let phase := s.cellGet cell 8 4
  let arrived := s.cellGet cell 4 4 + 1
  let last := s.cellGet cell 0 4 ≤ arrived
  let s1 := (s.cellPut cell 4 4 arrived).contribute cell coll data
  let root := s.cellGet cell 16 8 = 0
  if waits && !(last && root) then
    match s1.enlist { r.wait cell .arrival phase data with coll := coll } with
    | none => (s, some { status := 3 })
    | some s2 => (if last then s2.finishPhase cell else s2, none)
  else if last then
    let result := if root then (s1.combineAt cell).acc.getD [] else []
    let s2 := s1.finishPhase cell
    let aborted := (s2.cellGet cell 12 4).testBit 0
    (s2, some { status := if aborted then 4 else 0, value := phase, payload := result })
  else (s1, some { value := phase })

/-- The deferred arrivals applied in list order, each as a new Arrive, while the barrier does not await its parent
(R175). -/
def State.applyDeferred : Nat → State → Nat → State
  | 0, s, _ => s
  | n + 1, s, cell =>
    if (s.cellGet cell 12 4) &&& 5 ≠ 0 then s
    else
      let first := (s.waitsOf cell).find? fun w => match w.kind with | .deferred _ => true | _ => false
      match first with
      | none => s
      | some w =>
        let waits := match w.kind with | .deferred b => b | _ => false
        let (s1, a) := (s.unpark w).countArrival w.req cell waits w.coll w.payload
        let s2 := match a with
          | some x => s1.answer w.req { x with position := s1.stepOf cell } cell true w.spilled
          | none => s1
        State.applyDeferred n s2 cell

/-- Every deferred arrival that can be applied. -/
def State.settleBarrier (s : State) (cell : Nat) : State := s.applyDeferred (s.waitsOf cell).length cell

/-- Arrive of R175, with the contribution that a COLL or a combining child carries (R350, R351). -/
def State.stepArrive (s : State) (r : Req) (cell : Nat) (waits coll : Bool) (data : List Byte) : StepResult :=
  let flags := s.cellGet cell 12 4
  if flags.testBit 0 then (s, some { status := 4, value := s.cellGet cell 8 4 })
  else if flags.testBit 2 then s.parkOr { r.wait cell (.deferred waits) 0 data with coll := coll }
  else
    let (s1, a) := s.countArrival r cell waits coll data
    (s1.settleBarrier cell, a)

/-- An arrival with a contribution: its beats must match the descriptor, and of a child barrier its OP, FMT and N;
without a descriptor the barrier aborts (R350, R352). -/
def State.stepCombine (s : State) (r : Req) (cell : Nat) (data : List Byte) (shape : Shape) : StepResult :=
  if (s.cellGet cell 12 4).testBit 0 then (s, some { status := 4, value := s.cellGet cell 8 4 })
  else if !(s.cellGet cell 12 4).testBit 1 then (s, some { status := 9 })
  else
    let t := s.descRead cell
    match s.combineDesc cell with
    | none => (t.abortBarrier cell, some { status := 4, value := s.cellGet cell 8 4 })
    | some none => (t, some { status := 9 })
    | some (some (op, fmt, n, _)) =>
      if data.length = contributionSize op fmt n && (match shape with | some x => x == (op, fmt, n) | none => true) then
        t.stepArrive r cell true true data
      else (t, some { status := 9 })

/-- Engine.Step(BARWAIT) of R176. -/
def State.stepBarWait (s : State) (r : Req) (cell : Nat) (p : BitVec 32) : StepResult :=
  let phase := s.cellGet cell 8 4
  let d := (phase + 2 ^ 32 - p.toNat) % 2 ^ 32
  if (s.cellGet cell 12 4).testBit 0 then (s, some { status := 4, value := phase })
  else if 1 ≤ d && d < 2 ^ 31 then (s, some { value := phase })
  else s.parkOr (r.wait cell .phase p.toNat)

/-- Engine.Step(BARADJ) of R177, which names no other condition for Finish() than the two here. -/
def State.stepBarAdj (s : State) (cell : Nat) (x : Word) : StepResult :=
  let old := s.cellGet cell 0 4
  let new : Int := old + x.toInt
  let flags := s.cellGet cell 12 4
  if new < 1 || 2 ^ 32 - 1 < new then (s, some { status := 9, value := old })
  else
    let s1 := s.cellPut cell 0 4 new.toNat
    let s2 := if !flags.testBit 2 && new.toNat ≤ s.cellGet cell 4 4
      then (s1.finishPhase cell).settleBarrier cell else s1
    (s2, some { value := new.toNat })

/-! ### Ticket locks (R179, R180) -/

/-- No holder. -/
def noHolder : Nat := 2 ^ 64 - 1

/-- Release(s) of R179. -/
def State.lockRelease (s : State) (cell status : Nat) : State :=
  match s.waitsOf cell with
  | [] => (s.cellPut cell 8 8 noHolder).cellPut cell 4 4 (s.cellGet cell 0 4)
  | w :: _ =>
    let s1 := (s.cellPut cell 4 4 w.arg).cellPut cell 8 8 w.who.id
    s1.wake w { status := status, value := w.arg, grant := some (s.cellAddr cell) }

/-- A request for a lock: granted, or none where it is held (R179). -/
def State.lockGrant (s : State) (me cell : Nat) : Option StepResult :=
  if s.cellGet cell 8 8 = noHolder then
    let t := s.cellGet cell 0 4
    let ab := (s.cellGet cell 20 4).testBit 0
    let s1 := ((s.cellPut cell 0 4 ((t + 1) % 2 ^ 32)).cellPut cell 8 8 me).cellPut cell 4 4 t
    let s2 := s1.cellPut cell 20 4 (s.cellGet cell 20 4 / 2 * 2)
    some (s2, some { status := if ab then 5 else 0, value := t, grant := some (s.cellAddr cell) })
  else none

/-- Engine.Step(TLKACQ or TLKACQ.NW). -/
def State.stepAcquire (s : State) (r : Req) (cell : Nat) (nw : Bool) : StepResult :=
  match s.lockGrant r.who.id cell with
  | some x => x
  | none =>
    let t := s.cellGet cell 0 4
    if nw then (s, some { status := 1, value := t })
    else match s.enlist (r.wait cell .lock t) with
      | some s1 => (s1.cellPut cell 0 4 ((t + 1) % 2 ^ 32), none)
      | none => (s, some { status := 3 })

/-- A TLKACQ on a condition waiter's behalf: a moved waiter (R163, R182). -/
def State.stepMoved (s : State) (r : Req) (cell : Nat) : StepResult :=
  match s.lockGrant r.who.id cell with
  | some x => x
  | none =>
    let t := s.cellGet cell 0 4
    match s.enlist (r.wait cell .lock t) true with
    | some s1 => (s1.cellPut cell 0 4 ((t + 1) % 2 ^ 32), none)
    | none => (s, some { status := 3 })

/-- Engine.Step(TLKREL). -/
def State.stepRelease (s : State) (me cell : Nat) : StepResult :=
  if s.cellGet cell 8 8 = me then (s.lockRelease cell 0, some { unlock := some (s.cellAddr cell) }) else (s, some { status := 8 })

/-- An abandonment (R180); the value says whether the lock was held. -/
def State.stepAbandon (s : State) (me cell : Nat) : StepResult :=
  if s.cellGet cell 8 8 ≠ me then (s, some {})
  else
    let s1 :=
      if (s.waitsOf cell).isEmpty then
        ((s.cellPut cell 8 8 noHolder).cellPut cell 4 4 (s.cellGet cell 0 4)).cellPut cell 20 4
          (s.cellGet cell 20 4 ||| 1)
      else s.lockRelease cell 5
    (s1, some { value := 1 })

/-! ### Conditions (R182) -/

/-- Engine.Step(CVWAIT): the waiter is enlisted and a release of its lock sent. -/
def State.stepCvWait (s : State) (r : Req) (cell : Nat) : StepResult :=
  match s.enlist (r.wait cell .condition) with
  | none => (s, some { status := 3 })
  | some s1 => (s1.send (.cvRelease cell (.ofNat 64 (s.cellGet cell 8 8)) (s.creatorAsid cell) r.who.id), none)

/-- A waiter leaves a condition for its lock (R182), which is named to it as it is called outside this device. -/
def State.moveWaiter (s : State) (cell : Nat) (w : Wait) : State :=
  let lock : Word := .ofNat 64 (s.cellGet cell 8 8)
  (s.unpark w).send (.cvAcquire cell lock (s.creatorAsid cell) { w with lock := s.outward lock })

/-- Engine.Step(CVSIG) and Engine.Step(CVBC), on the first `n` waiters. -/
def State.stepSignal (s : State) (cell n : Nat) : StepResult :=
  let s1 := s.cellPut cell 0 4 ((s.cellGet cell 0 4 + 1) % 2 ^ 32)
  let ws := (s1.waitsOf cell).take n
  (ws.foldl (fun t w => t.moveWaiter cell w) s1, some { value := ws.length })

/-- The outcome of a condition's release of its lock: where the lock was not released, the waiter is taken out and
answered (R182). -/
def State.cvReleased (s : State) (cell who status : Nat) : State :=
  if status = 0 then s
  else match (s.waitsOf cell).find? fun w => w.who.id == who && w.kind == .condition with
    | some w => s.wake w { status := status }
    | none => s

/-! ### Version cells (R184 to R189) -/

/-- D, the depth of a version cell. -/
def State.vcDepth (s : State) (cell : Nat) : Nat := s.cellGet cell 2 1 / 8 % 4 + 1
/-- The buffer of a version (R185). -/
def State.vcBuf (s : State) (cell u : Nat) : Nat := (u - 1) % s.vcDepth cell
/-- Acknowledgements outstanding for a buffer. -/
def State.vcAcks (s : State) (cell b : Nat) : Nat := s.cellGet cell (4 + b) 1
/-- The address of a buffer (R185). -/
def State.vcBase (s : State) (cell b : Nat) : Nat := (s.cellGet cell 8 8 + b * s.cellGet cell 16 4) % 2 ^ 64
/-- The flag bits written. -/
def State.vcFlags (s : State) (cell f : Nat) : State := s.cellPut cell 2 1 f
/-- The producer parked in VCRSV. -/
def State.vcProducer (s : State) (cell : Nat) : Option Wait := (s.waitsOf cell).find? (·.kind == .producer)

/-- A notice of the cell's version and flags, sent to the distributors (R191). -/
def State.vcNotice (s : State) (cell : Nat) : State :=
  let f := s.cellGet cell 2 1
  s.send (.notice cell (.ofNat 16 (s.cellGet cell 0 2)) (f.testBit 1) (f.testBit 0))

/-- SettleAdd() of R189. -/
def State.settleAdd (s : State) (cell : Nat) : State :=
  let c := s.cellGet cell 24 8
  if c = 0 then s else s.send (.settle cell (.ofNat 64 c) (s.creatorAsid cell))

/-- Regrant() of R188. -/
def State.regrant (s : State) (cell : Nat) : State :=
  let b := s.cellGet cell 0 2 % s.vcDepth cell
  match s.vcProducer cell with
  | some w =>
    if s.vcAcks cell b = 0 then
      (s.vcFlags cell (s.cellGet cell 2 1 ||| 0x20)).wake w { value := s.vcBase cell b }
    else s
  | none => s

/-- Regrant() and SettleAdd() at the end of a step that lowered an ack count (R188, R189); `before` is the count of the
current version's buffer before the step. -/
def State.afterAcks (s : State) (cell before : Nat) : State :=
  let s1 := s.regrant cell
  let v := s.cellGet cell 0 2
  if (s.cellGet cell 2 1).testBit 0 && 0 < before && s.vcAcks cell (s.vcBuf cell v) = 0 then s1.settleAdd cell else s1

/-- Engine.Step(VCRSV). -/
def State.stepVcRsv (s : State) (r : Req) (cell : Nat) : StepResult :=
  let f := s.cellGet cell 2 1
  let v := s.cellGet cell 0 2
  if f.testBit 0 then (s, some { status := 9 })
  else if f.testBit 1 then (s, some { status := 6, value := v })
  else if f.testBit 5 || (s.vcProducer cell).isSome then (s, some { status := 7 })
  else if v = 65535 then (s, some { status := 9 })
  else
    let b := v % s.vcDepth cell
    if s.vcAcks cell b = 0 then (s.vcFlags cell (f ||| 0x20), some { value := s.vcBase cell b })
    else s.parkOr (r.wait cell .producer)

/-- Engine.Step(VCPUB). -/
def State.stepVcPub (s : State) (cell : Nat) : StepResult :=
  let f := s.cellGet cell 2 1
  let v := s.cellGet cell 0 2
  if f.testBit 0 then (s, some { status := 9 })
  else if f.testBit 1 then (s.vcFlags cell (f &&& 0xDF), some { status := 6, value := v })
  else if !f.testBit 5 then (s, some { status := 9 })
  else
    let s1 := (s.cellPut cell 0 2 (v + 1)).vcFlags cell (f &&& 0xDF)
    let s2 := (s1.cellPut cell (4 + s.vcBuf cell (v + 1)) 1 (s.cellGet cell 3 1)).vcNotice cell
    (if f.testBit 2 then s2.send (.refire cell (v + 1) (.ofNat 64 (s.cellGet cell 32 8)) (.ofNat 64 (s.cellGet cell 40 8))
      (s.creatorAsid cell) false []) else s2, some { value := v + 1 })

/-- Engine.Step(VCFIN). -/
def State.stepVcFin (s : State) (cell : Nat) : StepResult :=
  let f := s.cellGet cell 2 1
  let v := s.cellGet cell 0 2
  if v = 0 || f.testBit 0 then (s, some { status := 9 })
  else
    let s1 := s.vcFlags cell (f &&& 0xDF ||| 1)
    let s2 := match s1.vcProducer cell with | some w => s1.wake w { status := 9 } | none => s1
    let s3 := s2.vcNotice cell
    (if s3.vcAcks cell (s3.vcBuf cell v) = 0 then s3.settleAdd cell else s3, some { value := v })

/-- Engine.Step(VCSTOP). -/
def State.stepVcStop (s : State) (me cell : Nat) : StepResult :=
  let f := s.cellGet cell 2 1
  let v := s.cellGet cell 0 2
  if f &&& 3 ≠ 0 then (s, some { value := v })
  else
    let s1 := (s.vcFlags cell (f ||| 2)).cellPut cell 48 8 me
    let s2 := match s1.vcProducer cell with | some w => s1.wake w { status := 6, value := v } | none => s1
    (s2.vcNotice cell, some { value := v })

/-- Engine.Step(VCSUB) with its operand (R186, R188): a subscriber counted, and with the option its debt. The spec does not say what an ack count of 255 becomes when it is raised;
the model's byte wraps (log entry 115). -/
def State.stepVcSub (s : State) (cell : Nat) (opt : Word) : StepResult :=
  let f := s.cellGet cell 2 1
  let v := s.cellGet cell 0 2
  let subs := s.cellGet cell 3 1
  let owe := opt = 1
  if 1 < opt.toNat then (s, some { status := 9 })
  else if f.testBit 0 || subs = 255 then (s, some { status := 9 })
  else if owe && f.testBit 5 && s.vcDepth cell = 1 then (s, some { status := 7 })
  else
    let s1 := s.cellPut cell 3 1 (subs + 1)
    let b := s.vcBuf cell v
    let s2 := if owe && 1 ≤ v then s1.cellPut cell (4 + b) 1 (s.vcAcks cell b + 1) else s1
    (s2, some { value := v, watch := some (.set (s.cellAddr cell) (.ofNat 16 v) (f.testBit 1)) })

/-- The ack counts of versions lowered by one each. -/
def State.lowerAcks (s : State) (cell : Nat) (us : List Nat) : State :=
  us.foldl (fun t u =>
    let b := t.vcBuf cell u
    if t.vcAcks cell b = 0 then t else t.cellPut cell (4 + b) 1 (t.vcAcks cell b - 1)) s

/-- Engine.Step(VCACK) with its operand (R186, R188). -/
def State.stepVcAck (s : State) (cell : Nat) (x : Word) : StepResult :=
  let v := bitsOf x.toNat 15 0
  let n := if bitsOf x.toNat 23 16 = 0 then 1 else bitsOf x.toNat 23 16
  let cur := s.cellGet cell 0 2
  let d := s.vcDepth cell
  let us := (List.range n).map fun i => v + 1 - n + i
  if 2 ^ 24 ≤ x.toNat || d < n || v < n then (s, some { status := 9 })
  else if us.any fun u => u < 1 || cur < u || u + d ≤ cur || s.vcAcks cell (s.vcBuf cell u) = 0 then
    (s, some { status := 9 })
  else
    let s1 := (s.lowerAcks cell us).afterAcks cell (s.vcAcks cell (s.vcBuf cell cur))
    (s1, some { value := cur, watch := some (.raise (s.cellAddr cell) (.ofNat 16 v)) })

/-- Engine.Step(VCUNSUB) with its operand (R186, R188). -/
def State.stepVcUnsub (s : State) (cell : Nat) (last : Word) : StepResult :=
  let v := s.cellGet cell 0 2
  let subs := s.cellGet cell 3 1
  if 2 ^ 16 ≤ last.toNat || subs = 0 || v < last.toNat then (s, some { status := 9 })
  else
    let lo := max (max (last.toNat + 1) (v + 1 - min v (s.vcDepth cell))) 1
    let us := (List.range (v + 1 - lo)).map (lo + ·)
    let s1 := (s.lowerAcks cell us).cellPut cell 3 1 (subs - 1)
    (s1.afterAcks cell (s.vcAcks cell (s.vcBuf cell v)),
      some { value := subs - 1, watch := some (.clear (s.cellAddr cell)) })

/-! ### Creation, inspection, destruction (R170 to R173, R196) -/

/-- The bytes of a cell of a type. -/
def cellSize (ty : Nat) : Nat := if ty = 6 then 64 else 32

/-- The pages of a queue's slot storage, in order, by physical page number; none where one is not a slot page (R171). -/
def State.slotPages (s : State) (asid : BitVec 16) (base : Nat) : Nat → Option (List Nat)
  | 0 => some []
  | n + 1 =>
    let a : Word := .ofNat 64 base
    match if addrForm a && s.isLocal a && regionOf (keyOf a) = 0
        then s.region0Agent asid.toNat (keyOf a) true { r := true, w := true } else .error 5 with
    | .ok (pa, 2) => (s.slotPages asid (base + 65536) n).map (pa / 65536 :: ·)
    | _ => none

/-- The status with which an image is refused, or the cell that it makes (R171, R184). -/
def State.cellImage (s : State) (ty : Nat) (im : List Byte) (asid : BitVec 16) : Except Nat (List Byte) :=
  let g (o n : Nat) : Nat := leValue ((im.drop o).take n)
  match ty with
  | 1 =>
    if g 10 2 < 8 && g 20 12 = 0 then
      .ok (leBytes 8 (g 0 8) ++ leBytes 2 0 ++ leBytes 2 (g 10 2 &&& 5) ++ leBytes 4 0 ++ leBytes 4 (g 16 4) ++
        leBytes 12 0)
    else .error 9
  | 2 =>
    if g 0 4 ≠ 0 && g 12 4 < 8 && g 16 8 % 32 = 0 then
      .ok (leBytes 4 (g 0 4) ++ leBytes 4 0 ++ leBytes 4 (g 8 4) ++ leBytes 4 (g 12 4 &&& 2) ++ leBytes 8 (g 16 8) ++
        leBytes 8 (g 24 8))
    else .error 9
  | 3 => if g 24 8 = 0 then .ok (leBytes 8 0 ++ leBytes 8 noHolder ++ leBytes 16 0) else .error 9
  | 4 =>
    if 1 ≤ g 0 2 && g 2 1 ≤ 3 && g 16 8 % 65536 = 0 && g 24 8 = 0 then
      match s.slotPages asid (g 16 8) ((g 0 2 * (8 * 2 ^ g 2 1) + 65535) / 65536) with
      | none => .error 9
      | some ps =>
        if ps.any fun p => (tblGet? s.bound p).isSome then .error 7
        else .ok (leBytes 2 (g 0 2) ++ leBytes 1 (g 2 1) ++ leBytes 13 0 ++ leBytes 8 (g 16 8) ++ leBytes 8 0)
    else .error 9
  | 5 =>
    if g 8 8 ≠ 0 && g 8 8 % 32 = 0 && g 16 16 = 0 then .ok (leBytes 8 0 ++ leBytes 8 (g 8 8) ++ leBytes 16 0)
    else .error 9
  | _ =>
    let f := g 2 1
    let d := f / 8 % 4 + 1
    let q : Word := .ofNat 64 (g 40 8)
    let refire := f.testBit 2
    if f < 64 && g 8 8 % 32 = 0 && g 16 4 % 32 = 0 && (d = 1 || g 16 4 ≠ 0) && g 20 4 = 0 && g 24 8 % 32 = 0 &&
        g 56 8 = 0 &&
        (!refire || (g 32 8 % 64 = 0 && addrForm q && regionOf (keyOf q) = 3 &&
          (jobQueueOf? (keyOf q - ctlKey 0)).isSome)) then
      .ok (leBytes 2 0 ++ leBytes 1 (f &&& 0x1C) ++ leBytes 1 (g 3 1) ++ leBytes 4 0 ++ leBytes 8 (g 8 8) ++
        leBytes 8 (g 16 4) ++ leBytes 8 (g 24 8) ++ leBytes 8 (g 32 8) ++ leBytes 8 (g 40 8) ++
        leBytes 8 noHolder ++ leBytes 8 0)
    else .error 9

/-- The sectors of a cell of a type tagged. -/
def State.tagCell (s : State) (cell ty tag : Nat) : State :=
  (List.range (cellSize ty / 32)).foldl (fun t i => t.setTag (cell / 32 + i) tag) s

/-- A queue's slot pages bound to it, each with the places that it has among the pages of its storage (R171). -/
def State.bindPages (s : State) (cell : Nat) (ps : List Nat) : State :=
  { s with bound := ps.foldl (fun t p => tblPut t p (cell, (List.range ps.length).filter fun i => ps[i]? == some p)) s.bound }

/-- A queue's slot pages released. -/
def State.unbindPages (s : State) (cell : Nat) : State := { s with bound := s.bound.filter fun e => e.2.1 != cell }

/-- The translations of a queue's slot storage, which its engine makes (R171, R232). -/
def State.slotsLooked (s : State) (cell ty : Nat) (im : List Byte) (asid : BitVec 16) : State :=
  let g (o n : Nat) : Nat := leValue ((im.drop o).take n)
  if ty = 4 then s.spanLooked (homeNode cell) asid (.ofNat 64 (g 16 8)) (g 0 2 * (8 * 2 ^ g 2 1)) else s

/-- Engine.Step(OINIT) of R170. A type-6 cell is 64-aligned (R154, R184): the spec does not say how an address that is
not is answered, and the model answers INVALID (log entry 93). A destroyed queue keeps its tag, so OINIT on it is
answered BUSY (R170, R173; log entry 90). -/
def State.stepInit (s : State) (cell ty : Nat) (im : List Byte) (asid : BitVec 16) : StepResult :=
  if ty = 0 || 7 ≤ ty || (ty = 6 && cell % 64 ≠ 0) then (s, some { status := 9 })
  else if (List.range (cellSize ty / 32)).any fun i => s.tagOf (cell / 32 + i) != 0 then (s, some { status := 7 })
  else match s.cellImage ty im asid with
    | .error e => (s, some { status := e })
    | .ok bs =>
      let s1 := ((s.slotsLooked cell ty im asid).homeWrite cell bs).tagCell cell ty ty
      let s2 := { s1 with cellAsid := tblPut s1.cellAsid cell asid }
      let s3 :=
        if ty = 4 then
          s2.bindPages cell ((s.slotPages asid (leValue ((im.drop 16).take 8))
            ((leValue (im.take 2) * (8 * 2 ^ leValue ((im.drop 2).take 1)) + 65535) / 65536)).getD [])
        else s2
      (s3, some {})

/-- A cell freed: its fields zero, its tags 0 (R173). -/
def State.freeCell (s : State) (cell ty : Nat) : State :=
  let s1 := (s.homeWrite cell (List.replicate (cellSize ty) 0)).tagCell cell ty 0
  { s1 with cellAsid := tblDel s1.cellAsid cell, combines := tblDel s1.combines cell }

/-- Engine.Step(ODESTROY) of R173 and R196. -/
def State.stepDestroy (s : State) (cell : Nat) : StepResult :=
  let ty := s.cellTag cell
  let gone (s : State) : State := s.wakeAll (s.waitsOf cell) fun _ => { status := 2 }
  match ty with
  | 1 | 2 | 5 => ((gone s).freeCell cell ty, some {})
  | 3 => if s.cellGet cell 8 8 ≠ noHolder then (s, some { status := 7 }) else (s.freeCell cell 3, some {})
  | 4 =>
    if (s.cellGet cell 3 1).testBit 0 then (s.freeCell cell 4, some {})
    else (((gone s).cellPut cell 3 1 1).unbindPages cell, some {})
  | _ =>
    if (s.cellGet cell 2 1).testBit 5 || (s.vcProducer cell).isSome ||
        (List.range 4).any fun b => s.vcAcks cell b != 0 then (s, some { status := 7 })
    else (s.freeCell cell 6, some {})

/-- Engine.Step(OQUERY) of R172. -/
def State.stepQuery (s : State) (cell : Nat) : StepResult :=
  let ty := s.cellTag cell
  (s, some { status := ty, payload := if ty = 0 then [] else s.mem.read cell (cellSize ty) })

/-- The acknowledgement that the refire path owes for a version discharged (R193). -/
def State.stepDischarge (s : State) (cell version : Nat) : State :=
  let v := s.cellGet cell 0 2
  if version ≤ v && v < version + s.vcDepth cell then
    (s.lowerAcks cell [version]).afterAcks cell (s.vcAcks cell (s.vcBuf cell v))
  else s

/-- A removal of R183: the waiting context leaves its list, nothing else happens; a waiter in COLL aborts its barrier (R352). -/
def State.stepRemoval (s : State) (me cell : Nat) : StepResult :=
  match (s.waitsOf cell).find? fun w => w.who.id == me && !w.who.internal with
  | none => (s, some {})
  | some w =>
    let s1 := s.unpark w
    (if w.coll then s1.abortBarrier cell else s1, some { value := 1 })

/-! ### One step (R157, R166) -/

/-- Requests that an agent on its own behalf may not make (R159). -/
def ObjOp.ownersOnly : ObjOp → Bool
  | .acquire _ | .release | .cvWait => true
  | _ => false

/-- The cell of a sector: the second sector of a version cell belongs to the cell that begins 32 bytes before it (log
entry 91). -/
def State.cellOf (s : State) (key : Nat) : Nat := if s.cellTag key = 6 then key / 64 * 64 else key

/-- Engine.Step of any request on a cell: poisoned, it raises MCHECK at the requester (R327); of another type, TYPE
(R166); a lock request of an agent on its own behalf is INVALID (R159); a destroyed queue answers DESTROYED (R173). -/
def State.cellStep (s : State) (r : Req) (key : Nat) (op : ObjOp) : StepResult :=
  let cell := s.cellOf key
  let ty := s.cellTag cell
  let isInit := match op with | .init .. => true | _ => false
  let dead := ty = 4 && (s.cellGet cell 3 1).testBit 0
  if op != ObjOp.destroy && op != ObjOp.removal && s.poisoned cell (cellSize ty) then (s, some { trap := some (0x1F, r.addr) })
  else if (match op.needs with | some t => t != ty | none => (op == ObjOp.destroy && ty == 0) || (!isInit && ty == 7)) then
    (s, some { status := 9, trap := some (7, r.addr) })
  else if op.ownersOnly && r.who.internal then (s, some { status := 9 })
  else match op with
    | .init t im asid => s.stepInit cell t im asid
    | .destroy => s.stepDestroy cell
    | .query => s.stepQuery cell
    | .cntAdd x m => s.stepCntAdd cell x m
    | .cntWait t nw => s.stepCntWait r cell t nw
    | .cntZero => if s.cellGet cell 0 8 = 0 then (s, some {}) else s.parkOr (r.wait cell .counterZero)
    | .arrive w => s.stepArrive r cell w false []
    | .barWait p => s.stepBarWait r cell p
    | .barAdj x => s.stepBarAdj cell x
    | .acquire nw => s.stepAcquire r cell nw
    | .release => s.stepRelease r.who.id cell
    | .push nw data => if dead then (s, some { status := 2 }) else s.queuePush r cell nw data
    | .pop nw => if dead then (s, some { status := 2 }) else s.queuePop r cell nw
    | .cvWait => s.stepCvWait r cell
    | .signal => s.stepSignal cell 1
    | .broadcast => s.stepSignal cell (s.waitsOf cell).length
    | .pub => s.stepVcPub cell
    | .fin => s.stepVcFin cell
    | .rsv => s.stepVcRsv r cell
    | .stop => s.stepVcStop r.who.id cell
    | .sub o => s.stepVcSub cell o
    | .ack x => s.stepVcAck cell x
    | .unsub l => s.stepVcUnsub cell l
    | .cvRelease =>
      let (s1, a) := s.stepRelease r.who.id cell
      (s1, a.map fun (x : Answer) => { x with unlock := none })
    | .moved => s.stepMoved r cell
    | .abandon => s.stepAbandon r.who.id cell
    | .removal => s.stepRemoval r.who.id cell
    | .abortCell => (s.abortBarrier cell, some {})
    | .combine data shape => s.stepCombine r cell data shape
    | .complete status data =>
      (if status = 0 then (s.completePhase cell data).settleBarrier cell else s.abortBarrier cell, some {})
    | .unreleased status => (s.cvReleased cell r.who.id status, some {})
    | .discharge version => (s.stepDischarge cell version, some {})

/-- A step whose waiter finds no room: of an engine's or the distributor's own waiter, or one moved from a condition, the
slice's reserve has overflowed (R163). -/
def State.engineStep (s : State) (r : Req) (key : Nat) (op : ObjOp) : StepResult :=
  match s.cellStep r key op with
  | (s1, some a) =>
    (if a.status = 3 && op != .query && (r.who.internal || op == .moved) then s1.reserveOverflow (s.cellOf key) else s1, some a)
  | (s1, none) => (s1, none)

/-! ### The trace of steps (R370, R371) -/

/-- The context that a waiter id of this device names, as it stands in its frame or in its record. -/
def State.contextOf (s : State) (id : Nat) : Option Frame :=
  let c := s.ctxAt (id % 2 ^ 20)
  match c.state with
  | .resident => some (s.frameAt c.frame)
  | .free => none
  | _ => c.image

/-- The job of a number. -/
def State.jobAt (s : State) (n : Nat) : Option Job := s.jobs.find? (·.id == n)

/-- A job whose card asks for recording (+27 bit 3). -/
def Job.recorded (j : Job) : Bool := (leValue ((j.card.drop 27).take 1)).testBit 3

/-- A job of a number is recorded, also one that has ended while what was sent for it may still be on its way (R370). -/
def State.jobRecorded (s : State) (id : Option Nat) : Bool :=
  match id with
  | none => false
  | some n => match s.jobAt n with | some j => j.recorded | none => s.dev.tracedJobs.contains n

/-- The job that a block of a core's copy engine works for. -/
def State.blockJob (s : State) (core block : Nat) : Option Nat := ((s.coreAt core).fifo.find? (·.id == block)).bind (·.job)

/-- The requester belongs to a recorded job, or works for one (R370); of one on another device no tag tells (log entry 64). -/
def State.recorded (s : State) (who : Waiter) : Bool :=
  match who with
  | .ctx id => s.jobRecorded ((s.contextOf id).bind (·.job))
  | .card j | .drain j => s.jobRecorded (some j)
  | .xfer core block => s.jobRecorded (s.blockJob core block)
  | .remote src _ _ id _ => Config.requesterRecorded src id
  | .child _ | .refire .. => false

/-- The waiter id that a step's record names: jobs are numbered from the recording's or the replay's start, as they are placed. -/
def State.traceId (s : State) (who : Waiter) : Nat :=
  match who with
  | .card j | .drain j => if j = 0 then 0 else (BitVec.ofInt 40 ((j : Int) + 1 - s.dev.traceJob)).toNat
  | .xfer core _ => core
  | _ => who.id

/-- Replay holds a request on a traced cell: the trace admits its step, and another's before it (R371). -/
def State.replayHolds (s : State) (r : Req) (key : Nat) : Bool :=
  let cell := s.cellOf key
  s.replayOn && (s.nextTraced (stepMark cell (some (s.traceId r.who)))).isSome &&
    s.nextTraced (stepMark cell none) != s.nextTraced (stepMark cell (some (s.traceId r.who)))

/-- A step's place in the trace (R370, R371). -/
def State.traceStep (s : State) (r : Req) (cell n : Nat) (mine : Bool) : State := s.traceAs (s.traceId r.who) cell n mine

/-- A step, the next in its cell's order (R157), with its trace; the line of a cell in device memory is then held by its slice
(R212). A request on a cell's second sector is a step on the cell. -/
def State.objStep (s : State) (r : Req) (key : Nat) (op : ObjOp) : StepResult :=
  let cell := s.cellOf key
  let n := s.stepOf cell + 1
  let s0 := if regionOf cell = 0 then s.touch cell .normal else s
  let (s1, a) := ({ s0 with steps := tblPut s.steps cell n } : State).engineStep r cell op
  (s1.traceStep r cell n (s.recorded r.who), a.map fun (x : Answer) => { x with position := n })

/-! ### What agents send (R159, R248, R373) -/

/-- A counter add of an agent from its endpoint, for a job or, with 0, for none: to a counter of this device, or on to another one; where there is none it is lost,
with a machine check of kind 5 (R189, R235, R280, R367), as while the function that keeps the objects is out of service (R364). -/
def State.agentCntAdd (s : State) (cell : Word) (asid : BitVec 16) (x : Word) (marks sep : Nat) (what : RemoteWhat := .add none 0)
    (job : Nat := 0) : State :=
  let u := s.agentLooked (endpointNode sep) asid cell
  match s.agentTarget asid cell with
  | .here k =>
    if s.cellTag k = 1 && s.dev.ready.getLsbD 3 then
      ((u.crossed (endpointNode sep) (homeNode k) 2 false).objStep { who := .drain job } k (.cntAdd x marks)).1
    else u.machineCheck 5 (cellSlice k % 48) (cellSlice k / 48) cell.toNat 0 0
  | .away => u.sendFrom sep (.drain job) cell 4 x.toNat (min marks (2 ^ 32 - 1)) [] what
  | .bad => u.machineCheck 5 0 0 cell.toNat 0 0

/-- A load of an agent from another device (R373, R345). -/
def State.sendRead (s : State) (sep : Nat) (a : Word) (what : RemoteWhat) : State :=
  s.inject { s.packet (devOf a) sep 0 0 (keyOf a) [] with size := 32 } a what

/-- The bytes of a refire card on this device, which must lie on a plain page (R193, R373). -/
def State.localCard (s : State) (card : Word) (asid : BitVec 16) : Option (List Byte) :=
  let x : Actor := { asid := asid, part := 0, user := true, core := none }
  match s.region0Agent asid.toNat (keyOf card) true { r := true }, s.reachAll x card true false 64 with
  | .ok (_, 0), .ok ks => if regionOf (keyOf card) = 0 then some (s.gather ks) else none
  | _, _ => none

/-- A refire: the card at +32 is read, the version written into its copy, and the copy pushed to the job queue at +40
(R193, R373), on another device by an internal BQPUSH that is carried there; the beats of a card on another device are those fetched. What the spec names is +40, of which the model writes the
version's 16 bits: the rest of the template's field stays (log entry 116). -/
def State.refirePush (s : State) (cell version : Nat) (card queue : Word) (asid : BitVec 16) (got : List (Nat × List Byte)) :
    State :=
  let beat (i : Nat) : List Byte := match got.find? (·.1 == i) with | some e => e.2 | none => []
  let bytes := if addrForm card && !s.isLocal card then some (beat 0 ++ beat 1) else s.localCard card asid
  let k := keyOf queue
  match bytes with
  | none => s.send (.refireLost cell version)
  | some bs =>
    let u := s.agentFetched (homeNode cell) { asid := asid, part := 0, user := true, core := none } card 64
    let data := patch bs 40 (leBytes 2 version)
    let r : Req := { who := .refire cell version, addr := queue }
    if addrForm queue && !s.isLocal queue then
      u.sendObject r.who queue 0x10 0 64 data (.object { who := r.who, addr := queue, parks := true })
    else if !addrForm queue || regionOf k ≠ 3 || (jobQueueOf? (k - ctlKey 0)).isNone || s.cellTag k ≠ 4 then
      u.send (.refireLost cell version)
    else
      match (u.carried r.who k 64 false).objStep r k (.push false data) with
      | (s1, some a) => s1.answer r a k
      | (s1, none) => s1

/-- What a version cell has sent and the device can complete at once is completed: its settle adds and its pushes (R196). -/
def State.flushCell (s : State) (cell : Nat) : State :=
  let mine (m : Msg) : Bool := match m with
    | .settle c _ _ => c == cell
    | .refire c _ card _ _ _ got => c == cell && (s.isLocal card || 2 ≤ got.length)
    | _ => false
  (s.msgs.filter mine).foldl (fun t m => match m with
      | .settle _ counter asid => t.agentCntAdd counter asid 1 0 (sliceEndpoint (cellSlice cell)) (.settle cell)
      | .refire c v card queue asid _ got => t.refirePush c v card queue asid got
      | _ => t)
    { s with msgs := s.msgs.filter fun m => !mine m }

/-- Something that a version cell has sent is not complete: a push that waits for its card from another device or for room in its
queue, a settle add or a push on its way to another device (R196). -/
def State.cellBusy (s : State) (cell : Nat) : Bool :=
  (s.msgs.any fun m => match m with | .refire c .. | .settle c _ _ => c == cell | _ => false) ||
  (s.waits.any fun w => match w.who with | .refire c _ => c == cell | _ => false) ||
  s.remotes.any fun r => match r.what with
    | .settle c => c == cell
    | .object q => (match q.who with | .refire c _ => c == cell | _ => false)
    | _ => false

/-- A destruction that would free a version cell while something that the cell has sent cannot yet complete (R196). -/
def State.destroyHeld (s : State) (cell : Nat) : Bool :=
  s.cellTag cell == 6 && (s.flushCell cell).cellBusy cell && !((s.stepDestroy cell).2.map (·.status) == some 7)

/-- A step whose answer goes to its requester as a message (R167); before a destruction what the cell has sent completes
(R196). -/
def State.request (s : State) (r : Req) (cell : Nat) (op : ObjOp) : State :=
  let u := s.carried r.who cell op.payload false
  let t := if op = .destroy then u.flushCell (u.cellOf cell) else u
  match t.objStep r cell op with
  | (s1, some a) => s1.answer r a cell
  | (s1, none) => s1

end Sys2Proof.Machine
end

