-- ==== Sys2Proof/Machine/Operands.lean ====
section
/-! DEFINITION. Operand forms: the elements of vector registers and their predicates (R57, R99), conversions between
the formats of R55 (R60, R66), tile rows and accumulators (R114), and the class and privilege checks made before an
instruction's own rule (R36, R135). -/

namespace Sys2Proof.Machine

/-! ### Formats (R55) -/

/-- Element width in bits. -/
def fmtWidth : Fmt → Nat
  | .i8 | .n8 | .t8 => 8
  | .i16 | .n16 | .bf16 | .f16 => 16
  | .i32 | .n32 | .f32 => 32
  | .i64 | .n64 | .f64 => 64
  | .t6 => 6

/-- Elements of a vector register (R57). -/
def fmtCount : Fmt → Nat
  | .i8 | .n8 | .t8 | .t6 => 256
  | .i16 | .n16 | .bf16 | .f16 => 128
  | .i32 | .n32 | .f32 => 64
  | .i64 | .n64 | .f64 => 32

/-- The integer format is signed. -/
def fmtSigned : Fmt → Bool
  | .i8 | .i16 | .i32 | .i64 => true
  | _ => false

/-- The parameters of an IEEE format. -/
def fmtFloat : Fmt → Option FloatFmt
  | .bf16 => some fBf16
  | .f16 => some fF16
  | .f32 => some fF32
  | .f64 => some fF64
  | _ => none

/-- The width of a tapered format. -/
def fmtTaper : Fmt → Option Nat
  | .t8 => some 8
  | .t6 => some 6
  | _ => none

/-- The float format of a page-1 precision (R93). -/
def precFmt : Prec → FloatFmt
  | .f32 => fF32
  | .f64 => fF64

/-- The range of an integer format (R55). -/
def intRange (f : Fmt) : Int × Int :=
  let w := fmtWidth f
  if fmtSigned f then (-(2 ^ (w - 1) : Nat), (2 ^ (w - 1) - 1 : Nat)) else (0, (2 ^ w - 1 : Nat))

/-- The integer that an element's bits stand for. -/
def intValue (f : Fmt) (x : Nat) : Int :=
  let w := fmtWidth f
  if fmtSigned f && 2 ^ (w - 1) ≤ x % 2 ^ w then ((x % 2 ^ w : Nat) : Int) - (2 ^ w : Nat) else (x % 2 ^ w : Nat)

/-- An integer modulo 2^w as bits (R65). -/
def intBits (w : Nat) (v : Int) : Nat := (v % ((2 ^ w : Nat) : Int)).toNat

/-- Sat of R65: an integer clamped to a format's range. -/
def satInt (f : Fmt) (v : Int) : Int :=
  let (lo, hi) := intRange f
  if v < lo then lo else if hi < v then hi else v

/-! ### Conversions (R60, R66) -/

/-- An integer as an exact value. -/
def numOfInt (v : Int) : FpNum := .fin (decide (v < 0)) v.natAbs 0

/-- The exact value of an element; none is NaR. -/
def numOf (f : Fmt) (fz : Bool) (x : Nat) : Option FpNum :=
  match fmtFloat f, fmtTaper f with
  | some ff, _ => some (ff.decode fz x)
  | none, some n => taperedDecode n x
  | none, none => some (numOfInt (intValue f x))

/-- The IEEE-to-integer rule of R66: the range is judged after rounding. -/
def numToInt (f : Fmt) (m : Mode) : FpNum → Nat × Flags
  | .nan _ => (0, flagNV)
  | .inf neg => let (lo, hi) := intRange f; (intBits (fmtWidth f) (if neg then lo else hi), flagNV)
  | .fin neg mant exp =>
    let (n, inexact) := roundAt m.rm neg mant exp false 0
    let v : Int := if neg then -(n : Int) else n
    if satInt f v = v then (intBits (fmtWidth f) v, Flags.when inexact flagNX)
    else (intBits (fmtWidth f) (satInt f v), flagNV)

/-- The conversion of R66 between two formats; between one format and itself it copies, but for NaNs and what FZ
flushes (R107). -/
def convert (src dst : Fmt) (m : Mode) (x : Nat) : Nat × Flags :=
  if src = dst && (fmtFloat src).isNone then (x % 2 ^ fmtWidth src, 0)
  else
    match numOf src m.fz x, fmtFloat dst, fmtTaper dst with
    | none, some ff, _ => ff.invalid
    | none, none, some n => (taperedNaR n, flagNV)
    | none, none, none => (0, flagNV)
    | some v, some ff, _ => ff.round m v
    | some v, none, some n => taperedRound n v
    | some v, none, none =>
      if (fmtFloat src).isNone && (fmtTaper src).isNone then (intBits (fmtWidth dst) (satInt dst (intValue src x)), 0)
      else numToInt dst m v

/-! ### Elements of vector registers (R57, R99) -/

/-- The first `n` values of `k` bytes each. -/
def chunks (k : Nat) : Nat → List Byte → List Nat
  | 0, _ => []
  | n + 1, bs => leValue (bs.take k) :: chunks k n (bs.drop k)

/-- The first `4 * n` six-bit values, four to a group of three bytes (R57). -/
def unpack6 : Nat → List Byte → List Nat
  | 0, _ => []
  | n + 1, bs =>
    let g := leValue (bs.take 3)
    g % 64 :: g / 64 % 64 :: g / 4096 % 64 :: g / 262144 % 64 :: unpack6 n (bs.drop 3)

/-- Six-bit values packed four to a group of three bytes. -/
def pack6 : List Nat → List Byte
  | a :: b :: c :: d :: t => leBytes 3 (a % 64 + 64 * (b % 64) + 4096 * (c % 64) + 262144 * (d % 64)) ++ pack6 t
  | _ => []

/-- A vector register from bytes, those past the list zero. -/
def toVVal (bs : List Byte) : VVal :=
  let a := bs.toArray
  Vector.ofFn fun i => a.getD i.val 0

/-- A tile register from bytes. -/
def toTile (bs : List Byte) : TileVal :=
  let a := bs.toArray
  Vector.ofFn fun i => a.getD i.val 0

/-- An accumulator from f32 patterns. -/
def toAcc (xs : List (BitVec 32)) : AccVal :=
  let a := xs.toArray
  Vector.ofFn fun i => a.getD i.val 0

/-- The elements of a register in order. -/
def elems (f : Fmt) (v : VVal) : List Nat :=
  if f = .t6 then unpack6 64 v.toList else chunks (fmtWidth f / 8) (fmtCount f) v.toList

/-- A register from its elements; t6 leaves bytes 192 to 255 zero (R57). -/
def ofElems (f : Fmt) (xs : List Nat) : VVal :=
  toVVal (if f = .t6 then pack6 xs else xs.flatMap (leBytes (fmtWidth f / 8)))

/-- Which elements of a format a predicate governs as active (R99). -/
def actives (f : Fmt) (p : Word) : List Bool :=
  (List.range (fmtCount f)).map fun e => p.getLsbD (e * 64 / fmtCount f)

/-- New elements where active, old ones elsewhere, and the flags of the active ones (R99). -/
def mergeElems : List Bool → List Nat → List (Nat × Flags) → List Nat × Flags
  | act :: as, old :: os, (x, fl) :: xs =>
    let (r, g) := mergeElems as os xs
    if act then (x :: r, fl ||| g) else (old :: r, g)
  | _, os, _ => (os, 0)

/-- Active elements of V[d] written from results in order, and their flags raised; the group retires (R99). -/
def State.writeElems (s : State) (f : Fmt) (d : VReg) (pr : PReg) (xs : List (Nat × Flags)) : State :=
  let (r, fl) := mergeElems (actives f (s.fr.getP pr)) (elems f (s.fr.getV d)) xs
  let whole := s.fr.getP pr == -1
  ((s.putFr (if whole then s.fr.setVAll d (ofElems f r) else s.fr.setV d (ofElems f r))).raise fl).retire

/-! ### The bank's registers (R11) -/

/-- T[t] of a core. -/
def Core.getT (c : Core) (t : TReg) : TileVal := c.tiles[t.toNat]'t.isLt
/-- T[t] written whole, which ends its poison (R327). -/
def Core.setT (c : Core) (t : TReg) (x : TileVal) : Core :=
  { c with tiles := c.tiles.set t.toNat x t.isLt, poisonT := c.poisonT &&& ~~~((1 : BitVec 8) <<< t.toNat) }
/-- T[t] written in part, which leaves its poison (R327). -/
def Core.setTPart (c : Core) (t : TReg) (x : TileVal) : Core := { c with tiles := c.tiles.set t.toNat x t.isLt }
/-- A[a] of a core. -/
def Core.getA (c : Core) (a : AReg) : AccVal := c.accs[a.toNat]'a.isLt
/-- A[a] written, which ends its poison (R327). -/
def Core.setA (c : Core) (a : AReg) (x : AccVal) : Core :=
  { c with accs := c.accs.set a.toNat x a.isLt, poisonA := c.poisonA &&& ~~~((1 : BitVec 4) <<< a.toNat) }

/-- The bytes of an accumulator (R114). -/
def accBytes (x : AccVal) : List Byte := x.toList.flatMap fun w => leBytes 4 w.toNat
/-- An accumulator from its bytes. -/
def accOfBytes (bs : List Byte) : AccVal := toAcc ((chunks 4 1024 bs).map (.ofNat 32))

/-! ### Tile rows (R114) -/

/-- The elements of one row of a tile from its 64 bytes. -/
def rowElems (f : Fmt) (bs : List Byte) : List Nat :=
  if f = .t6 then unpack6 16 bs else if f = .t8 then chunks 1 64 bs else chunks 2 32 bs

/-- The 64 bytes of a row from its elements. -/
def rowBytes (f : Fmt) (xs : List Nat) : List Byte :=
  if f = .t6 then pack6 xs ++ List.replicate 16 0
  else if f = .t8 then xs.flatMap (leBytes 1) else xs.flatMap (leBytes 2)

/-- The 32 rows of a tile as bytes. -/
def tileRows (t : TileVal) : List (List Byte) := (List.range 32).map fun r => (t.toList.drop (64 * r)).take 64

/-- A tile from its rows. -/
def ofRows (rs : List (List Byte)) : TileVal := toTile rs.flatten

/-- The elements of a tile, row by row. -/
def tileElems (f : Fmt) (t : TileVal) : Array (Array Nat) := ((tileRows t).map fun r => (rowElems f r).toArray).toArray

/-- An element of a table of rows. -/
def gridAt {α : Type} (g : Array (Array α)) (r c : Nat) (dflt : α) : α := (g.getD r #[]).getD c dflt

/-- The size of a tile's memory row. -/
def rowSize (f : Fmt) : Nat := if f = .t6 then 48 else 64

/-! ### Scratchpad loads and stores by parts (R111, R224) -/

/-- The bytes that an element occupies in memory: three for the group of a t6 element. -/
def memBytes (f : Fmt) : Nat := if f = .t6 then 3 else fmtWidth f / 8

/-- The pieces of `n` bytes from an address that each lie within one 32-byte granule: offset and size (R224). -/
def granules (a n : Nat) : List (Nat × Nat) :=
  (sectorsOf a n).map fun g => (max a (g * 32) - a, min (a + n) (g * 32 + 32) - max a (g * 32))

/-- Elements in ascending order put in their places among others. -/
def mergeAt : Nat → List Nat → List (Nat × Nat) → List Nat
  | k, old :: t, (e, x) :: xs => if k = e then x :: mergeAt (k + 1) t xs else old :: mergeAt (k + 1) t ((e, x) :: xs)
  | _, old, [] => old
  | _, [], _ => []

/-- The element that a vector load takes from the bytes of its access: of t6 the bits of its place in the group (R109). -/
def loadedElem (f : Fmt) (v place : Nat) : Nat := if f = .t6 then v / 64 ^ place % 64 else v

/-- A tile from the bytes of its memory rows; transposed, element r of memory row c is element (r, c) (R115). -/
def loadedTile (f : Fmt) (transposed : Bool) (bs : List Byte) : TileVal :=
  if transposed then
    let n := if f = .t8 then 64 else 32
    let size := if f = .t8 then 32 else 64
    let g := ((List.range n).map fun c => (chunks (fmtWidth f / 8) 32 ((bs.drop (size * c)).take size)).toArray).toArray
    ofRows ((List.range 32).map fun r => rowBytes f ((List.range n).map fun c => gridAt g c r 0))
  else
    ofRows ((List.range 32).map fun r =>
      (bs.drop (rowSize f * r)).take (rowSize f) ++ List.replicate (64 - rowSize f) 0)

/-- A value of `n` bytes sign- or zero-extended to 64 bits. -/
def extendTo (signed : Bool) (n v : Nat) : Word := if signed then sextNat (8 * n) v else .ofNat 64 v

/-- The register that a scratchpad load of a frame fills, from the bytes of its accesses in their order. -/
def State.fillPad (s : State) (n : Nat) (dst : PadDest) (bs : List Byte) : State :=
  let f := s.frameAt n
  let c := s.coreAt (n / 4)
  match dst with
  | .scalar d k signed =>
    s.putFrame n (f.setS d (extendTo signed k (leValue bs)))
  | .vector d fm es =>
    let xs := (chunks (memBytes fm) (bs.length / memBytes fm) bs).toArray
    let new := es.map fun e => (e.1, loadedElem fm (xs.getD e.2.1 0) e.2.2)
    let v := ofElems fm (mergeAt 0 (elems fm (f.getV d)) new)
    s.putFrame n (if es.length = fmtCount fm then f.setVAll d v else f.setV d v)
  | .tile d fm tr => s.putCore (n / 4) (c.setT d (loadedTile fm tr bs))
  | .acc d => s.putCore (n / 4) (c.setA d (accOfBytes bs))

/-! ### Class checks (R135) -/

/-- A page-2 group or a repeat instruction: ILLEGAL in class 0. -/
def State.needVector (s : State) (k : State → State) : State := if s.fr.cls = 0 then s.illegal else k s

/-- A matrix group: ILLEGAL below class 2. -/
def State.needMatrix (s : State) (k : State → State) : State := if s.fr.cls.toNat < 2 then s.illegal else k s

/-- An instruction marked (S): PRIV in U (R36). -/
def State.needS (s : State) (k : State → State) : State := if s.fr.inS then k s else s.priv

/-! ### Local addresses of several accesses -/

/-- The first local access that fails its checks, in order: cause and address. -/
def firstLocalFault (f : Frame) (n al : Nat) : List Nat → Option (Nat × Nat)
  | [] => none
  | a :: t =>
    match f.localFault a n al with
    | some c => some (c, a)
    | none => firstLocalFault f n al t

end Sys2Proof.Machine
end

