-- ==== Sys2Proof/Machine/ScalarInt.lean ====
section
/-! DEFINITION. Page 0: integer operations, scratchpad loads and stores, control transfer and control of the context
(R73 to R92). -/

namespace Sys2Proof.Machine

/-! ### Shared operations -/

/-- A register-to-register operation (R75). -/
def State.alu2 (s : State) (op : Word → Word → Word) (d a b : SReg) : Result :=
  .next (s.done1 d (op (s.rs a) (s.rs b)))

/-- An operation on a register and the extended immediate (R78). -/
def State.aluImm (s : State) (op : Word → Word → Word) (d a : SReg) (imm : Word) : Result :=
  .next (s.done1 d (op (s.rs a) imm))

/-- An operation on one register (R77). -/
def State.alu1 (s : State) (op : Word → Word) (d a : SReg) : Result := .next (s.done1 d (op (s.rs a)))

/-- A truth value as 1 or 0. -/
def boolWord (b : Bool) : Word := if b then 1 else 0

/-- The shift amount of R75. -/
def shamt (b : Word) : Nat := b.toNat % 64

/-- Bits [127:64] of the signed product (R75). -/
def mulHigh (a b : Word) : Word := BitVec.ofInt 64 (a.toInt * b.toInt / 2 ^ 64)
/-- Bits [127:64] of the unsigned product (R75). -/
def mulHighN (a b : Word) : Word := .ofNat 64 (a.toNat * b.toNat / 2 ^ 64)

/-- Quotient and remainder of signed division (R76). -/
def divSigned (a b : Word) : Word × Word :=
  if b = 0 then (-1, a)
  else if a = 0x8000000000000000#64 ∧ b = -1 then (0x8000000000000000#64, 0)
  else
    let q : Word := BitVec.ofInt 64 (Int.tdiv a.toInt b.toInt)
    (q, a - q * b)

/-- Quotient and remainder of unsigned division (R76). -/
def divUnsigned (a b : Word) : Word × Word :=
  if b = 0 then (-1, a) else let q : Word := .ofNat 64 (a.toNat / b.toNat); (q, a - q * b)

/-- Leading zero bits among the low `n` (R77). -/
def leadingZeros (w : Word) : Nat → Nat
  | 0 => 0
  | n + 1 => if w.getLsbD n then 0 else 1 + leadingZeros w n

/-- Trailing zero bits among `n` from bit `i` up (R77). -/
def trailingZeros (w : Word) : Nat → Nat → Nat
  | 0, _ => 0
  | n + 1, i => if w.getLsbD i then 0 else 1 + trailingZeros w n (i + 1)

/-- One bits among the low `n` (R77). -/
def onesCount (w : Word) : Nat → Nat
  | 0 => 0
  | n + 1 => (if w.getLsbD n then 1 else 0) + onesCount w n

/-- The access size of an sz field in bytes. -/
def sizeOf2 (sz : BitVec 2) : Nat := 2 ^ sz.toNat

/-- The effective address of the M format (R81, R257). -/
def effAddr (base imm : Word) (sz : BitVec 2) : Word := base + imm * .ofNat 64 (sizeOf2 sz)

/-- LDL and LDLN (R81); poisoned data raises MCHECK (R327). -/
def State.localLoad (s : State) (signed : Bool) (d a : SReg) (imm : Word) (sz : BitVec 2) : State :=
  let ea := effAddr (s.rs a) imm sz
  let n := sizeOf2 sz
  match s.fr.localFault ea.toNat n n with
  | some c => s.trap c ea
  | none =>
    if s.poisoned (localKey s.here ea.toNat) n then s.trap 0x1F ea 1
    else s.done1 d (extendTo signed n (leValue (s.localRead ea.toNat n)))

/-- A taken branch goes to the group PC plus twice the offset; otherwise the next group follows (R83). -/
def State.branch (s : State) (c : Bool) (imm : Word) : Result :=
  .next (if c then s.jump (s.fr.pc + imm + imm) else s.retire)

/-- The address after the group (R34). -/
def State.nextPc (s : State) : Word := s.fr.pc + .ofNat 64 (2 * s.issue.len)

/-- The link register written and the return-address stack pushed (R84, R87). -/
def State.link (s : State) : State :=
  let f := s.fr.setS 1 s.nextPc
  s.putFr { f with ras := (s.nextPc :: f.ras).take 8 }

/-- An address with bit 0 cleared (R85). -/
def evenAddr (w : Word) : Word := w &&& ~~~(1 : Word)

/-! ### R75, R76 -/

def execAdd (d a b : SReg) (s : State) : Result := s.alu2 (· + ·) d a b
def execSub (d a b : SReg) (s : State) : Result := s.alu2 (· - ·) d a b
def execAnd (d a b : SReg) (s : State) : Result := s.alu2 (· &&& ·) d a b
def execOr (d a b : SReg) (s : State) : Result := s.alu2 (· ||| ·) d a b
def execXor (d a b : SReg) (s : State) : Result := s.alu2 (· ^^^ ·) d a b
def execAndn (d a b : SReg) (s : State) : Result := s.alu2 (fun x y => x &&& ~~~y) d a b
def execSll (d a b : SReg) (s : State) : Result := s.alu2 (fun x y => x <<< shamt y) d a b
def execSrl (d a b : SReg) (s : State) : Result := s.alu2 (fun x y => x >>> shamt y) d a b
def execSra (d a b : SReg) (s : State) : Result := s.alu2 (fun x y => x.sshiftRight (shamt y)) d a b
def execRor (d a b : SReg) (s : State) : Result := s.alu2 (fun x y => x.rotateRight (shamt y)) d a b
def execSlt (d a b : SReg) (s : State) : Result := s.alu2 (fun x y => boolWord (x.slt y)) d a b
def execSltn (d a b : SReg) (s : State) : Result := s.alu2 (fun x y => boolWord (x.ult y)) d a b
def execMul (d a b : SReg) (s : State) : Result := s.alu2 (· * ·) d a b
def execMulh (d a b : SReg) (s : State) : Result := s.alu2 mulHigh d a b
def execMulhn (d a b : SReg) (s : State) : Result := s.alu2 mulHighN d a b
def execSeq (d a b : SReg) (s : State) : Result := s.alu2 (fun x y => boolWord (x == y)) d a b
def execDiv (d a b : SReg) (s : State) : Result := s.alu2 (fun x y => (divSigned x y).1) d a b
def execDivn (d a b : SReg) (s : State) : Result := s.alu2 (fun x y => (divUnsigned x y).1) d a b
def execRem (d a b : SReg) (s : State) : Result := s.alu2 (fun x y => (divSigned x y).2) d a b
def execRemn (d a b : SReg) (s : State) : Result := s.alu2 (fun x y => (divUnsigned x y).2) d a b
def execMin (d a b : SReg) (s : State) : Result := s.alu2 (fun x y => if x.slt y then x else y) d a b
def execMax (d a b : SReg) (s : State) : Result := s.alu2 (fun x y => if x.slt y then y else x) d a b
def execMinn (d a b : SReg) (s : State) : Result := s.alu2 (fun x y => if x.ult y then x else y) d a b
def execMaxn (d a b : SReg) (s : State) : Result := s.alu2 (fun x y => if x.ult y then y else x) d a b

/-! ### R78, R79 -/

def execAddi (d a : SReg) (imm : Word) (s : State) : Result := s.aluImm (· + ·) d a imm
def execAndi (d a : SReg) (imm : Word) (s : State) : Result := s.aluImm (· &&& ·) d a imm
def execOri (d a : SReg) (imm : Word) (s : State) : Result := s.aluImm (· ||| ·) d a imm
def execXori (d a : SReg) (imm : Word) (s : State) : Result := s.aluImm (· ^^^ ·) d a imm
def execSlli (d a : SReg) (imm : Word) (s : State) : Result := s.aluImm (fun x y => x <<< shamt y) d a imm
def execSrli (d a : SReg) (imm : Word) (s : State) : Result := s.aluImm (fun x y => x >>> shamt y) d a imm
def execSrai (d a : SReg) (imm : Word) (s : State) : Result := s.aluImm (fun x y => x.sshiftRight (shamt y)) d a imm
def execSlti (d a : SReg) (imm : Word) (s : State) : Result := s.aluImm (fun x y => boolWord (x.slt y)) d a imm
def execLi (d : SReg) (imm : Word) (s : State) : Result := .next (s.done1 d imm)
def execLih (d : SReg) (imm : Word) (s : State) : Result :=
  .next (s.done1 d ((s.rs d &&& 0x0000FFFFFFFFFFFF#64) ||| (imm <<< 48)))

/-! ### R77 -/

def execClz (d a : SReg) (s : State) : Result := s.alu1 (fun x => .ofNat 64 (leadingZeros x 64)) d a
def execCtz (d a : SReg) (s : State) : Result := s.alu1 (fun x => .ofNat 64 (trailingZeros x 64 0)) d a
def execPopc (d a : SReg) (s : State) : Result := s.alu1 (fun x => .ofNat 64 (onesCount x 64)) d a
def execSext (d a : SReg) (sz : BitVec 2) (s : State) : Result :=
  s.alu1 (fun x => sextNat (8 * sizeOf2 sz) x.toNat) d a

/-! ### R80 to R82 -/

def execLdl (d a : SReg) (imm : Word) (sz : BitVec 2) (s : State) : Result := .next (s.localLoad true d a imm sz)
def execLdln (d a : SReg) (imm : Word) (sz : BitVec 2) (s : State) : Result := .next (s.localLoad false d a imm sz)
def execStl (d a : SReg) (imm : Word) (sz : BitVec 2) (s : State) : Result :=
  let ea := effAddr (s.rs a) imm sz
  let n := sizeOf2 sz
  .next (match s.fr.localFault ea.toNat n n with
    | some c => s.trap c ea
    | none => (s.localWrite ea.toNat (leBytes n (s.rs d).toNat)).retire)

/-! ### R83 to R87 -/

def execBeq (a b : SReg) (imm : Word) (s : State) : Result := s.branch (s.rs a == s.rs b) imm
def execBne (a b : SReg) (imm : Word) (s : State) : Result := s.branch (s.rs a != s.rs b) imm
def execBlt (a b : SReg) (imm : Word) (s : State) : Result := s.branch ((s.rs a).slt (s.rs b)) imm
def execBge (a b : SReg) (imm : Word) (s : State) : Result := s.branch (!(s.rs a).slt (s.rs b)) imm
def execBltn (a b : SReg) (imm : Word) (s : State) : Result := s.branch ((s.rs a).ult (s.rs b)) imm
def execBgen (a b : SReg) (imm : Word) (s : State) : Result := s.branch (!(s.rs a).ult (s.rs b)) imm
def execJ (imm : Word) (s : State) : Result := .next (s.jump (s.fr.pc + imm + imm))
def execJal (imm : Word) (s : State) : Result := .next (s.link.jump (s.fr.pc + imm + imm))
def execJr (a : SReg) (s : State) : Result := .next (s.jump (evenAddr (s.rs a)))
def execJalr (a : SReg) (s : State) : Result := .next (s.link.jump (evenAddr (s.rs a)))
def execRet (a : SReg) (s : State) : Result :=
  .next ((s.putFr { s.fr with ras := s.fr.ras.drop 1 }).jump (evenAddr (s.rs a)))

/-! ### R88 to R92 -/

/-- ILLEGAL with the offending halfword and its position in TRAPVAL (R36). -/
def State.illegalAt (s : State) (hw : BitVec 16) (pos : BitVec 3) : State :=
  s.trap 1 (.ofNat 64 (hw.toNat + pos.toNat * 65536))

def execUdf (hw : BitVec 16) (pos : BitVec 3) (s : State) : Result := .next (s.illegalAt hw pos)
def execNonInstructionPattern (hw : BitVec 16) (pos : BitVec 3) (s : State) : Result := .next (s.illegalAt hw pos)
def execNop (s : State) : Result := .next s.retire
def execBrk (n : BitVec 8) (s : State) : Result := .next (s.trap 0x0B (n.setWidth 64))

/-- Some other frame of the core is READY. -/
def State.otherReady (s : State) : Bool :=
  [0, 1, 2, 3].any fun k => s.here * 4 + k != s.cur && (s.frameAt (s.here * 4 + k)).status == .ready

/-- YIELD retires and offers the core to another READY frame; an owner that yields keeps the bank against no further
exchange (R89, R134). -/
def execYield (s : State) : Result :=
  let t := s.retire
  let c := t.co
  let mine := c.owner == some (.ofNat 2 t.cur)
  let t := t.putCo { c with hold := c.hold && !mine }
  .next (if s.otherReady then
      (t.putFr { t.fr with status := .ready }).putCo { t.co with issuing := none, lastFrame := .ofNat 2 t.cur }
    else t)

/-- What DONE and DONE.AB wait for (R90, R251): no TMMA of the frame started, every access complete and URS 0, every copy command pushed has
completed, every moss-mode call issued has added to its counter, here or on another device, and every contribution sent has been
acknowledged (R347). -/
def State.chunkDrained (s : State) : Bool :=
  let f := s.fr
  let me := s.waiterId f.handle
  f.complete &&
  (match s.co.tmma with | some t => t.frame != s.cur | none => true) &&
  s.co.fifo.all (fun b => b.orphan || b.handle != f.handle) &&
  s.slices.all (fun e => (e.2.queue ++ e.2.input).all (fun c => c.orphan || c.waiter != me) &&
    (match e.2.run with | some r => r.call.orphan || r.call.waiter != me | none => true)) &&
  s.msgs.all (fun m => match m with | .agentAdd _ _ _ _ (some w) _ _ => w != me | _ => true) &&
  s.remotes.all (fun r => match r.what with
    | .add (some w) _ => w != me
    | .contribution _ who => who != .ctx me
    | _ => true)

/-- The end of a chunk (R90, R91, R225, R251): the frame is EMPTY, the bank released without writing it, pins and refused
journal entries given up, the handle FREE, and the distributor told. -/
def State.endChunk (s : State) (abandoned : Bool) : State :=
  if !s.chunkDrained then s
  else
    let f := s.fr
    let t := ((s.putFr f.emptied).putCo (s.co.leave s.cur)).unpinAll f.handle
    let t := t.putCtx f.handle.toNat {}
    match f.job with
    | some j => t.send (.chunkEnd j f.first f.records abandoned)
    | none => t

def execDone (s : State) : Result := .next (s.endChunk false)
def execDoneAb (s : State) : Result := .next (s.endChunk true)

end Sys2Proof.Machine
end

