-- ==== Sys2Proof/Machine/Objects.lean ====
section
/-! DEFINITION. The page-5 and page-6 instructions as the core issues them: the checks of R166, the request, the wait
for its reply (R165 to R169, R186), and COLL (R350). -/

namespace Sys2Proof.Machine

/-! ### Parking (R130, R167) -/

/-- The issuing frame parks: the group has issued and its reply will finish it. A parked owner gives up the hold on the
matrix bank (R134); the STATE word shows a parked request (R320). -/
def State.parkFrame (s : State) (on : ParkKind) (rk : ReplyKind) (d : SReg) (vd : VReg := 0) : State :=
  let f := s.fr
  let c := s.co
  let me : BitVec 2 := .ofNat 2 s.cur
  let h := f.handle.toNat
  let s := match on with | .request .. => s.putCtx h { s.ctxAt h with parked := true } | _ => s
  (s.putFr { f with
    status := .parked, parkedOn := on, parkPc := f.pc, parkLen := s.issue.len, parkD := d, parkVd := vd,
    parkKind := rk, pc := s.nextPc }).putCo
    { c with issuing := none, lastFrame := me, hold := c.hold && c.owner != some me }

/-- A status that the core decides at once: written to S[d][7:0]; with d = 0, one that is neither OK nor WOULDBLOCK
raises OBJSTAT after retirement (R167, R168). The spec names no value beside such a status, and S[d+1] is kept (log entry
88). -/
def State.coreStatus (s : State) (d : SReg) (status : Nat) (addr : Word) : State :=
  if d = 0 && status ≠ 0 && status ≠ 1 then s.retireThenTrap 8 status addr
  else s.done1 d (.ofNat 64 status)

/-! ### The checks of R166 -/

/-- Where a checked object request goes. -/
inductive CellPlace where
  | here (key : Nat)
  | away
  deriving DecidableEq, Repr

/-- Which of the cells in the control region a request may name (R166, R328), and whether the request is posted (R344). -/
structure CellRights where
  jobQueue : Bool := false
  machineCheck : Bool := false
  posted : Bool := false

/-- Steps 1 to 3 of R166 on a cell's address: the cause of the first failure, or where the cell is. -/
def State.cellPlace (s : State) (a : Word) (al : Nat) (x : CellRights) : Except Nat CellPlace :=
  let f := s.fr
  let k := keyOf a
  if a.toNat % al ≠ 0 then .error 3
  else if !addrForm a then .error 5
  else if !s.isLocal a then
    if !x.posted && s.podDevices ≤ devOf a then .error 5
    else match regionOf k with
      | 0 => .ok .away
      | 3 =>
        match jobQueueOf? (k - ctlKey 0) with
        | some (p, _) => if x.jobQueue && p = f.part.toNat then .ok .away else .error 6
        | none => .error 7
      | _ => .error 7
  else match regionOf k with
    | 0 =>
      match s.region0 s.here f.asid.toNat k (!f.inS) { w := true } with
      | .error c => .error c
      | .ok (pa, kind) => if kind = 1 then .ok (.here pa) else .error 7
    | 3 =>
      let off := k - ctlKey 0
      if off = mcQueueOff then (if f.inS && x.machineCheck then .ok (.here k) else .error 6)
      else match jobQueueOf? off with
        | some (p, _) => if x.jobQueue && p = f.part.toNat then .ok (.here k) else .error 6
        | none => .error 7
    | _ => .error 7

/-! ### The request -/

/-- What a request carries to another device: its code, an operand, a small one and a payload (log entry 12); the last three are
steps that never leave their device. -/
def ObjOp.wire : ObjOp → Nat × (Nat × (Nat × List Byte))
  | .init ty im _ => (0x00, 0, ty, im)
  | .destroy => (0x01, 0, 0, [])
  | .query => (0x02, 0, 0, [])
  | .cntAdd x m => (0x04, x.toNat, min m (2 ^ 32 - 1), [])
  | .cntWait t nw => (0x06 + nw.toNat, t.toNat, 0, [])
  | .cntZero => (0x32, 0, 0, [])
  | .arrive w => (if w then 0x0A else 0x08, 0, 0, [])
  | .barWait p => (0x09, p.toNat, 0, [])
  | .barAdj x => (0x0B, x.toNat, 0, [])
  | .acquire nw => (0x0C + nw.toNat, 0, 0, [])
  | .release => (0x0E, 0, 0, [])
  | .push nw data => (0x10 + nw.toNat, 0, data.length, data)
  | .pop nw => (0x12 + nw.toNat, 0, 0, [])
  | .cvWait => (0x14, 0, 0, [])
  | .signal => (0x15, 0, 0, [])
  | .broadcast => (0x16, 0, 0, [])
  | .pub => (0x20, 0, 0, [])
  | .fin => (0x21, 0, 0, [])
  | .rsv => (0x22, 0, 0, [])
  | .stop => (0x23, 0, 0, [])
  | .sub o => (0x24, o.toNat, 0, [])
  | .ack x => (0x25, x.toNat, 0, [])
  | .unsub l => (0x27, l.toNat, 0, [])
  | .cvRelease => (0x34, 0, 0, [])
  | .moved => (0x35, 0, 0, [])
  | .abortCell => (0x36, 0, 0, [])
  | .abandon => (0x37, 0, 0, [])
  | .combine .. => (0x38, 0, 0, [])
  | .removal => (0x39, 0, 0, [])
  | .complete status _ => (0x3A, status, 0, [])
  | .unreleased status => (0x3B, status, 0, [])
  | .discharge version => (0x3C, version, 0, [])

/-- The request that a code and its operands stand for; none where the code is not one. -/
def ObjOp.ofWire (code x y : Nat) (data : List Byte) (asid : BitVec 16) : Option ObjOp :=
  let w : Word := .ofNat 64 x
  match code with
  | 0x00 => some (.init y data asid)
  | 0x01 => some .destroy
  | 0x02 => some .query
  | 0x04 => some (.cntAdd w y)
  | 0x06 => some (.cntWait w false)
  | 0x07 => some (.cntWait w true)
  | 0x08 => some (.arrive false)
  | 0x09 => some (.barWait (.ofNat 32 x))
  | 0x0A => some (.arrive true)
  | 0x0B => some (.barAdj w)
  | 0x0C => some (.acquire false)
  | 0x0D => some (.acquire true)
  | 0x0E => some .release
  | 0x10 => some (.push false (data.take y))
  | 0x11 => some (.push true (data.take y))
  | 0x12 => some (.pop false)
  | 0x13 => some (.pop true)
  | 0x14 => some .cvWait
  | 0x15 => some .signal
  | 0x16 => some .broadcast
  | 0x20 => some .pub
  | 0x21 => some .fin
  | 0x22 => some .rsv
  | 0x23 => some .stop
  | 0x24 => some (.sub w)
  | 0x25 => some (.ack w)
  | 0x27 => some (.unsub w)
  | 0x32 => some .cntZero
  | 0x34 => some .cvRelease
  | 0x35 => some .moved
  | 0x36 => some .abortCell
  | 0x37 => some .abandon
  | 0x39 => some .removal
  | _ => none

/-- The issuing context as a waiter. -/
def State.me (s : State) : Waiter := .ctx (s.waiterId s.fr.handle)

/-- Requests that may park (R159). -/
def ObjOp.parks : ObjOp → Bool
  | .cntWait _ nw | .acquire nw | .push nw _ | .pop nw => !nw
  | .arrive waits => waits
  | .barWait _ | .cvWait | .rsv | .combine .. | .cntZero | .moved => true
  | _ => false

/-- An object request of a waiter sent across the fabric (R343). -/
def State.sendOp (s : State) (who : Waiter) (a : Word) (op : ObjOp) (what : RemoteWhat) : State :=
  match op with
  | .combine data shape => s.sendCombine who a data shape what
  | _ =>
    let (code, x, y, data) := op.wire
    s.sendObject who a code x y data what

/-- The frame parks and its request reaches the engine, here or across the fabric (R167, R343). Which slice of another
device is home to its cell no reply tells: the number that the context's state records for it is open (R160; log entry
94). -/
def State.sendRequest (s : State) (a : Word) (p : CellPlace) (rk : ReplyKind) (d : SReg) (vd : VReg) (op : ObjOp) :
    State :=
  let cv := op == .cvWait
  match p with
  | .here key =>
    let r : Req := { who := s.me, rk := rk, d := d, vd := vd, addr := a }
    if s.replayHolds r key then s
    else (s.parkFrame (.request (cellSlice key) (s.cellAddr key) cv) rk d vd).request r key op
  | .away =>
    let (home, s1) := s.fresh 8
    (s1.parkFrame (.request (home.toNat % 192) a cv) rk d vd).sendOp s.me a op
      (.object { who := s.me, kind := rk, d := d, vd := vd, addr := a, parks := op.parks })

/-- A cell of this device while the function that keeps its objects is not READY (R364). -/
def State.objectsBusy (s : State) (p : CellPlace) : Bool :=
  match p with
  | .here _ => !s.dev.ready.getLsbD 3
  | .away => false

/-- A request that must wait before it leaves: an earlier access of its context is not complete or a store of its core not
acknowledged (R247), or a destruction meets a push that its cell has sent (R196). -/
def State.requestHeld (s : State) (p : CellPlace) (op : ObjOp) : Bool :=
  !s.releasable true || (op == .destroy && (match p with | .here key => s.destroyHeld (s.cellOf key) | .away => false))

/-- A page-5 or page-6 request: the checks of R166; while the function that keeps the device's objects is not READY it is
answered BUSY (R364; log entry 122); it leaves once R247 lets it; the frame parks until the reply (R167). -/
def State.objectGroup (s : State) (a : Word) (al : Nat) (x : CellRights) (rk : ReplyKind) (d : SReg) (vd : VReg)
    (op : ObjOp) : Result :=
  let u := s.looked a al
  .next (match s.cellPlace a al x with
    | .error c => u.trap c a
    | .ok p =>
      if s.objectsBusy p then u.coreStatus d 7 a
      else if u.requestHeld p op then u else u.sendRequest a p rk d vd op)

/-- A page-5 request of a plain cell. -/
def State.page5 (s : State) (d a : SReg) (rk : ReplyKind) (op : ObjOp) : Result :=
  s.objectGroup (s.rs a) 32 {} rk d 0 op

/-- The image is read from the scratchpad at S[b] with bits [4:0] cleared (R170). -/
def execOinit (d a b : SReg) (s : State) : Result :=
  let w := s.rs b
  let ty := w.toNat % 8
  let at_ := w.toNat / 32 * 32
  let u := s.looked (s.rs a) 32
  match s.cellPlace (s.rs a) 32 {} with
  | .error c => .next (u.trap c (s.rs a))
  | .ok _ =>
    match s.padFault at_ (cellSize ty) 1 with
    | some (c, det) => .next (u.trap c (.ofNat 64 at_) det)
    | none =>
      s.page5 d a .plain
        (.init (if w.toNat / 8 % 4 = 0 then ty else 0) (s.localRead at_ (cellSize ty)) s.fr.asid)

def execOdestroy (d a : SReg) (s : State) : Result := s.page5 d a .plain .destroy

/-- OQUERY is allowed on the context's own job queues, and in S on the machine-check queue (R166, R328). -/
def execOquery (d a : SReg) (b : VReg) (s : State) : Result :=
  s.objectGroup (s.rs a) 32 { jobQueue := true, machineCheck := true } .query d b .query

def execCntadd (d a b : SReg) (s : State) : Result := s.page5 d a .withValue (.cntAdd (s.rs b) 0)

/-- CNTADD.P: checked as the others, it takes a journal entry and retires; it is sent under the condition of R247, like a
release at scope dev (R169, R244, R247). A DEV beyond the pod's devices is refused through the journal (R344). -/
def execCntaddP (a b : SReg) (s : State) : Result :=
  let u := s.looked (s.rs a) 32
  .next (match s.cellPlace (s.rs a) 32 { posted := true } with
    | .error c => u.trap c (s.rs a)
    | .ok p =>
      match s.fr.freeEntry with
      | none => u
      | some i =>
        let x : Posted := { addr := s.rs a, data := s.rs b, kind := 1, release := some true }
        match p with
        | .here key => (u.post i { x with home := key }).retire
        | .away => (u.post i { x with remote := true }).retire)

def execCntwait (d a b : SReg) (s : State) : Result := s.page5 d a .withValue (.cntWait (s.rs b) false)
def execCntwaitNw (d a b : SReg) (s : State) : Result := s.page5 d a .withValue (.cntWait (s.rs b) true)
def execBararr (d a : SReg) (s : State) : Result := s.page5 d a .withValue (.arrive false)
def execBarwait (d a b : SReg) (s : State) : Result := s.page5 d a .withValue (.barWait ((s.rs b).setWidth 32))
def execBaraw (d a : SReg) (s : State) : Result := s.page5 d a .withValue (.arrive true)
def execBaradj (d a b : SReg) (s : State) : Result := s.page5 d a .withValue (.barAdj (s.rs b))

/-- TLKACQ and TLKACQ.NW: a context that holds 16 locks receives LOCKLIMIT from the core (R179). -/
def State.acquireGroup (s : State) (d a : SReg) (nw : Bool) : Result :=
  let u := s.looked (s.rs a) 32
  match s.cellPlace (s.rs a) 32 {} with
  | .error c => .next (u.trap c (s.rs a))
  | .ok _ =>
    if 16 ≤ s.fr.locks.length then .next (u.coreStatus d 10 (s.rs a))
    else s.page5 d a .withValue (.acquire nw)

def execTlkacq (d a : SReg) (s : State) : Result := s.acquireGroup d a false
def execTlkacqNw (d a : SReg) (s : State) : Result := s.acquireGroup d a true
def execTlkrel (d a : SReg) (s : State) : Result := s.page5 d a .plain .release

/-- BQPUSH and BQPUSH.NW carry the first 64 bytes of V[b], of which the queue takes its slot size (R181). -/
def State.pushGroup (s : State) (d a : SReg) (b : VReg) (nw : Bool) : Result :=
  s.objectGroup (s.rs a) 32 { jobQueue := true } .withValue d 0 (.push nw ((s.fr.getV b).toList.take 64))

def execBqpush (d a : SReg) (b : VReg) (s : State) : Result := s.pushGroup d a b false
def execBqpushNw (d a : SReg) (b : VReg) (s : State) : Result := s.pushGroup d a b true
def execBqpop (d a : SReg) (b : VReg) (s : State) : Result :=
  s.objectGroup (s.rs a) 32 { machineCheck := true } .pop d b (.pop false)
def execBqpopNw (d a : SReg) (b : VReg) (s : State) : Result :=
  s.objectGroup (s.rs a) 32 { machineCheck := true } .pop d b (.pop true)
def execCvwait (d a : SReg) (s : State) : Result := s.page5 d a .plain .cvWait
def execCvsig (d a : SReg) (s : State) : Result := s.page5 d a .withValue .signal
def execCvbc (d a : SReg) (s : State) : Result := s.page5 d a .withValue .broadcast

/-! ### Version cells (R186) -/

/-- A page-6 request. -/
def State.page6 (s : State) (d a : SReg) (rk : ReplyKind) (op : ObjOp) : Result :=
  s.objectGroup (s.rs a) 64 {} rk d 0 op

def execVcpub (d a : SReg) (s : State) : Result := s.page6 d a .withValue .pub
def execVcfin (d a : SReg) (s : State) : Result := s.page6 d a .withValue .fin
def execVcrsv (d a : SReg) (s : State) : Result := s.page6 d a .withValue .rsv
def execVcstop (d a : SReg) (s : State) : Result := s.page6 d a .withValue .stop
def execVcsub (d a b : SReg) (s : State) : Result := s.page6 d a .withValue (.sub (s.rs b))
def execVcack (d a b : SReg) (s : State) : Result := s.page6 d a .withValue (.ack (s.rs b))
def execVcunsub (d a b : SReg) (s : State) : Result := s.page6 d a .withValue (.unsub (s.rs b))

/-- VCNOT (R191). -/
def Frame.vcnot (f : Frame) : Word :=
  match f.watch.cell with
  | none => 0
  | some _ =>
    .ofNat 64 (f.watch.latest.toNat + (if f.watch.ver.toNat < f.watch.latest.toNat then 2 ^ 16 else 0) +
      f.watch.stop.toNat * 2 ^ 17 + f.watch.final.toNat * 2 ^ 18 + 2 ^ 19)

/-- VCCHK copies VCNOT; it sends nothing and orders nothing (R192). -/
def execVcchk (d : SReg) (s : State) : Result := .next (s.done1 d s.fr.vcnot)

/-! ### OKILL (R183) -/

/-- A message to a context is still on its way: a reply or wake, the reply of a CTXSAVE, a BSABORT or an OKILL that is not done, a condition's request to its lock, or from another device
a load's value or the reply to a request that does not park there (R183). -/
def State.owed (s : State) (id : Nat) : Bool :=
  let isMe (w : Waiter) : Bool := match w with | .ctx x => x == id | _ => false
  (s.msgs.any fun m => match m with
    | .reply r | .spilled _ (.reply r) => isMe r.who
    | .load _ h _ _ _ => s.waiterId h == id
    | .cvRelease _ _ _ w | .cvFailed _ w => w == id
    | .cvAcquire _ _ _ w | .combine w _ _ => isMe w.who
    | _ => false) ||
  (s.slices.any fun e => match e.2.run with | some r => r.abort.isSome && r.call.waiter == id | none => false) ||
  (s.frames.any fun e => e.2.stopFor.any fun w => isMe w.who) ||
  (s.ctxs.any fun e => (e.2.cleanFor.map fun w => isMe w.who).getD false) ||
  (s.remotes.any fun r => match r.what with
    | .load _ h _ _ _ _ => s.waiterId h == id
    | .object q => isMe q.who && !q.parks
    | .cvRelease _ w => w == id
    | _ => false)

/-- The removal at a condition's lock: the lock that the condition names; of a condition on another device its lock is one
that the context holds (R182, R183). -/
def State.lockRemovals (s : State) (id : Nat) (f : Frame) (cell : Word) : List Msg :=
  if s.isLocal cell then
    let lock : Word := .ofNat 64 (s.cellGet (keyOf cell) 8 8)
    match s.agentTarget (s.creatorAsid (keyOf cell)) lock with
    | .here k => [.removal (s.cellAddr k) id]
    | .away => [.removal lock id]
    | .bad => []
  else f.locks.map fun l => .removal l id

/-- The messages of an OKILL: a removal where the context's request is parked, and at its lock where that is a
CVWAIT; an abandonment of each lock it holds (R183). -/
def State.cleanMessages (s : State) (id : Nat) (f : Frame) : List Msg :=
  let parked := match f.parkedOn with
    | .request _ cell cv =>
      if f.status != .parked then [] else .removal cell id :: (if cv then s.lockRemovals id f cell else [])
    | _ => []
  parked ++ f.locks.map fun l => .abandon l id true

/-- An OKILL's reply. -/
def State.cleanReply (s : State) (h : Nat) (w : Wait) : State :=
  let c := s.ctxAt h
  (s.putCtx h { c with cleaned := true, cleanFor := none, cleanPending := 0, parked := false }).deliver w.req
    { value := w.arg }

/-- OKILL (S): INVALID, BUSY, or the clean-up of a DEAD context once nothing is on its way to it; its held-lock list is cleared, in its
record too (R320). A second OKILL of a
context whose clean-up is under way is answered BUSY: the spec does not say how (log entry 92). -/
def execOkill (d a : SReg) (s : State) : Result :=
  .next (s.needS fun s =>
    let w := s.rs a
    let id := w.toNat
    let h := id % 2 ^ 20
    let c := s.ctxAt h
    let req : Req := { who := s.me, d := d, addr := w }
    let park (s : State) : State := s.parkFrame (.request 0 w false) .withValue d
    if !s.releasable true then s
    else if 2 ^ 38 ≤ id then (park s).deliver req { status := 9 }
    else if id / 2 ^ 20 ≠ s.devNum || c.state != .dead || c.cleanFor.isSome then (park s).deliver req { status := 7 }
    else if s.owed id then s
    else
      let f := c.image.getD {}
      let ms := s.cleanMessages id f
      let wait := req.wait 0 .counter
      let s1 := ((park s).putCtx h
        { c with cleanFor := some wait, cleanPending := ms.length,
                 image := some { f with locks := [], parkedOn := .none } }).homeWrite (s.recordAt h + 0x580) (leBytes 128 0)
      if ms.isEmpty then s1.cleanReply h wait else { s1 with msgs := s1.msgs ++ ms })

/-! ### COLL (R350) -/

/-- COLL: a contribution of S[b][39:32] beats, read at issue, goes with the arrival to the barrier's gateway. -/
def execColl (d a b : SReg) (s : State) : Result :=
  let w := s.rs b
  let addr := s.rs a
  let n := 32 * bitsOf w.toNat 39 32
  let l := bitsOf w.toNat 18 0
  let u := s.looked addr 32
  .next (match s.cellPlace addr 32 {} with
    | .error c => u.trap c addr
    | .ok p =>
      if bitsOf w.toNat 31 19 ≠ 0 || bitsOf w.toNat 63 40 ≠ 0 then u.coreStatus d 9 addr
      else match s.padFault l (max n 1) 32 with
        | some (c, det) => u.trap c (.ofNat 64 l) det
        | none =>
          if s.objectsBusy p then u.coreStatus d 7 addr
          else if !s.releasable true then u
          else
            let data := s.localRead l n
            match p with
            | .here key =>
              let r : Req := { who := s.me, rk := .withValue, d := d, addr := addr }
              ((u.parkFrame (.request (cellSlice key) (s.cellAddr key) false) .withValue d).carried r.who key data.length false).send
                (.combine { r.wait key .arrival 0 data with coll := true } none [])
            | .away => u.sendRequest addr p .withValue d 0 (.combine data none))

end Sys2Proof.Machine
end

