-- ==== Sys2Proof/Machine/ScalarFp.lean ====
section
/-! DEFINITION. Page 1: scalar floating point (R93 to R98). -/

namespace Sys2Proof.Machine

/-- The low bits of a register that an operand of a precision occupies (R93). -/
def fpOperand (p : Prec) (w : Word) : Nat := w.toNat % 2 ^ (precFmt p).width

/-- The value of a register in a precision; under FZ a subnormal reads as zero (R63, R93). -/
def State.fpNum (s : State) (p : Prec) (r : SReg) : FpNum := (precFmt p).decode s.mode.fz (fpOperand p (s.rs r))

/-- A result written with the bits above it zero, its flags raised, and the group retired (R93, R62). -/
def State.fpDone (s : State) (d : SReg) (x : Nat × Flags) : Result :=
  .next (((s.ws d (.ofNat 64 x.1)).raise x.2).retire)

/-- A rounded operation on two registers (R94). -/
def State.fp2 (s : State) (op : FloatFmt → Mode → FpNum → FpNum → Nat × Flags) (p : Prec) (d a b : SReg) : Result :=
  s.fpDone d (op (precFmt p) s.mode (s.fpNum p a) (s.fpNum p b))

/-- A fused operation with S[d] as addend, its factors and addend negated as asked (R95). -/
def State.fpFused (s : State) (negProduct negAddend : Bool) (p : Prec) (d a b : SReg) : Result :=
  let x := s.fpNum p a
  let z := s.fpNum p d
  s.fpDone d ((precFmt p).fma s.mode (if negProduct then x.negate else x) (s.fpNum p b)
    (if negAddend then z.negate else z))

/-- A comparison: NV for a signalling NaN, and for any NaN where the relation is ordered (R96). -/
def State.fpCompare (s : State) (rel : FpNum → FpNum → Bool) (quiet : Bool) (p : Prec) (d a b : SReg) : Result :=
  let x := s.fpNum p a
  let y := s.fpNum p b
  let nv := x.isSNaN || y.isSNaN || (!quiet && (x.isNaN || y.isNaN))
  s.fpDone d ((rel x y).toNat, Flags.when nv flagNV)

/-- x < y or x = y with neither a NaN. -/
def FpNum.le (x y : FpNum) : Bool := x.lt y || x.eq y

/-- An operation on the bits alone, without flags (R56, R97). -/
def State.fpBits (s : State) (op : Nat → Nat) (p : Prec) (d a : SReg) : Result :=
  s.fpDone d (op (fpOperand p (s.rs a)), 0)

/-- The sign of an encoding replaced. -/
def withSign (f : FloatFmt) (x : Nat) (neg : Bool) : Nat := x % 2 ^ (f.ebits + f.fbits) + f.signBit neg

/-- The sign bit of an encoding. -/
def signOf (f : FloatFmt) (x : Nat) : Bool := x / 2 ^ (f.ebits + f.fbits) % 2 == 1

/-- The class mask of R97, read as encoded. -/
def classMask (f : FloatFmt) (x : Nat) : Nat :=
  let frac := x % 2 ^ f.fbits
  let ex := x / 2 ^ f.fbits % 2 ^ f.ebits
  let neg := signOf f x
  if ex = 2 ^ f.ebits - 1 then
    if frac = 0 then (if neg then 1 else 128)
    else if frac < 2 ^ (f.fbits - 1) then 256 else 512
  else if ex = 0 then
    if frac = 0 then (if neg then 8 else 16) else (if neg then 4 else 32)
  else if neg then 2 else 64

def execFadd (p : Prec) (d a b : SReg) (s : State) : Result := s.fp2 FloatFmt.add p d a b
def execFsub (p : Prec) (d a b : SReg) (s : State) : Result := s.fp2 (fun f m x y => f.add m x y.negate) p d a b
def execFmul (p : Prec) (d a b : SReg) (s : State) : Result := s.fp2 FloatFmt.mul p d a b
def execFdiv (p : Prec) (d a b : SReg) (s : State) : Result := s.fp2 FloatFmt.div p d a b
def execFmin (p : Prec) (d a b : SReg) (s : State) : Result :=
  s.fpDone d ((precFmt p).minMax s.mode false (fpOperand p (s.rs a)) (fpOperand p (s.rs b)))
def execFmax (p : Prec) (d a b : SReg) (s : State) : Result :=
  s.fpDone d ((precFmt p).minMax s.mode true (fpOperand p (s.rs a)) (fpOperand p (s.rs b)))
def execFsgnj (p : Prec) (d a b : SReg) (s : State) : Result :=
  s.fpBits (fun x => withSign (precFmt p) x (signOf (precFmt p) (fpOperand p (s.rs b)))) p d a
def execFsqrt (p : Prec) (d a : SReg) (s : State) : Result := s.fpDone d ((precFmt p).sqrt s.mode (s.fpNum p a))
def execFma (p : Prec) (d a b : SReg) (s : State) : Result := s.fpFused false false p d a b
def execFms (p : Prec) (d a b : SReg) (s : State) : Result := s.fpFused false true p d a b
def execFnma (p : Prec) (d a b : SReg) (s : State) : Result := s.fpFused true false p d a b
def execFeq (p : Prec) (d a b : SReg) (s : State) : Result := s.fpCompare FpNum.eq true p d a b
def execFlt (p : Prec) (d a b : SReg) (s : State) : Result := s.fpCompare FpNum.lt false p d a b
def execFle (p : Prec) (d a b : SReg) (s : State) : Result := s.fpCompare FpNum.le false p d a b
def execFun (p : Prec) (d a b : SReg) (s : State) : Result := s.fpCompare (fun x y => x.isNaN || y.isNaN) true p d a b
def execFclass (p : Prec) (d a : SReg) (s : State) : Result := s.fpBits (classMask (precFmt p)) p d a
def execFabs (p : Prec) (d a : SReg) (s : State) : Result := s.fpBits (fun x => withSign (precFmt p) x false) p d a
def execFneg (p : Prec) (d a : SReg) (s : State) : Result :=
  s.fpBits (fun x => withSign (precFmt p) x (!signOf (precFmt p) x)) p d a

/-- The element format of a precision. -/
def precElem : Prec → Fmt
  | .f32 => .f32
  | .f64 => .f64

/-- Integer to float (R98). -/
def execFcvtFI (f : Fmt) (p : Prec) (d a : SReg) (s : State) : Result :=
  s.fpDone d (convert f (precElem p) s.mode ((s.rs a).toNat % 2 ^ fmtWidth f))

/-- Float to saturated integer, extended as the format is signed (R98). -/
def execFcvtIF (f : Fmt) (p : Prec) (d a : SReg) (s : State) : Result :=
  let (x, fl) := convert (precElem p) f s.mode (fpOperand p (s.rs a))
  s.fpDone d ((BitVec.ofInt 64 (intValue f x)).toNat, fl)

/-- Between f32 and f64, to the precision named (R98). -/
def execFcvtFF (p : Prec) (d a : SReg) (s : State) : Result :=
  let src : Prec := match p with | .f32 => .f64 | .f64 => .f32
  s.fpDone d (convert (precElem src) (precElem p) s.mode (fpOperand src (s.rs a)))

/-- To or from a tapered format (R98). -/
def execFcvtT (f : Fmt) (p : Prec) (d a : SReg) (toFloat : Bool) (s : State) : Result :=
  if toFloat then s.fpDone d (convert f (precElem p) s.mode ((s.rs a).toNat % 2 ^ fmtWidth f))
  else s.fpDone d (convert (precElem p) f s.mode (fpOperand p (s.rs a)))

end Sys2Proof.Machine
end

