-- ==== Sys2Proof/Machine/VectorUnit.lean ====
section
/-! DEFINITION. Page 2: the vector unit (R99 to R112). Captured groups read the scalar operands of their capture and
the registers of each issue (R20, R125). -/

namespace Sys2Proof.Machine

/-! ### Element functions (R101, R102) -/

/-- A float operation on two elements, or an integer one on their values with the result modulo 2^w. -/
def elem2 (f : Fmt) (m : Mode) (fl : FloatFmt → Mode → FpNum → FpNum → Nat × Flags) (int : Int → Int → Int)
    (x y : Nat) : Nat × Flags :=
  match fmtFloat f with
  | some ff => fl ff m (ff.decode m.fz x) (ff.decode m.fz y)
  | none => (intBits (fmtWidth f) (int (intValue f x) (intValue f y)), 0)

/-- An operation on the bits of two elements, without flags. -/
def elemBits2 (f : Fmt) (op : Nat → Nat → Nat) (x y : Nat) : Nat × Flags := (op x y % 2 ^ fmtWidth f, 0)

/-- Minimum or maximum: R64 on IEEE formats, the format's order on integers. -/
def elemMinMax (f : Fmt) (m : Mode) (wantMax : Bool) (x y : Nat) : Nat × Flags :=
  match fmtFloat f with
  | some ff => ff.minMax m wantMax x y
  | none =>
    let below := decide (intValue f x < intValue f y)
    ((if below != wantMax then x else y) % 2 ^ fmtWidth f, 0)

/-- A shift by the low log2(w) bits of the second element (R101). -/
def elemShift (f : Fmt) (op : Nat → Nat → Nat → Nat) (x y : Nat) : Nat × Flags :=
  let w := fmtWidth f
  (op w x (y % w) % 2 ^ w, 0)

/-- The arithmetic right shift: copies of the sign bit enter for a signed format, which an unsigned one has none of. -/
def sarBits (f : Fmt) (x sh : Nat) : Nat := intBits (fmtWidth f) (intValue f x / (2 ^ sh : Nat))

/-- A fused element operation with V[d] as addend (R102). -/
def elemFused (f : Fmt) (m : Mode) (negProduct negAddend : Bool) (x y z : Nat) : Nat × Flags :=
  match fmtFloat f with
  | some ff =>
    let a := ff.decode m.fz x
    let c := ff.decode m.fz z
    ff.fma m (if negProduct then a.negate else a) (ff.decode m.fz y) (if negAddend then c.negate else c)
  | none => (z, 0)

/-- A special function of R71. -/
def elemSpecial (f : Fmt) (m : Mode) (op : FloatFmt → Mode → FpNum → Nat × Flags) (x : Nat) : Nat × Flags :=
  match fmtFloat f with
  | some ff => op ff m (ff.decode m.fz x)
  | none => (x, 0)

/-! ### Element instructions -/

/-- A two-operand element instruction (R99). -/
def State.vec2 (s : State) (f : Fmt) (d a b : VReg) (pr : PReg) (op : Nat → Nat → Nat × Flags) : Result :=
  .next (s.needVector fun s =>
    s.writeElems f d pr (List.zipWith op (elems f (s.fr.getV a)) (elems f (s.fr.getV b))))

/-- A one-operand element instruction (R99). -/
def State.vec1 (s : State) (f : Fmt) (d a : VReg) (pr : PReg) (op : Nat → Nat × Flags) : Result :=
  .next (s.needVector fun s => s.writeElems f d pr ((elems f (s.fr.getV a)).map op))

/-- An element instruction that also reads V[d] (R102). -/
def State.vec3 (s : State) (f : Fmt) (d a b : VReg) (pr : PReg) (op : Nat → Nat → Nat → Nat × Flags) : Result :=
  .next (s.needVector fun s =>
    s.writeElems f d pr (List.zipWith (fun g z => g z)
      (List.zipWith op (elems f (s.fr.getV a)) (elems f (s.fr.getV b))) (elems f (s.fr.getV d))))

/-- The exact integer result as given, or clamped where the suffix .sat asks for it (R65). -/
def satIf (sat : Bool) (f : Fmt) (v : Int) : Int := if sat then satInt f v else v

def execVadd (sat : Bool) (f : Fmt) (d a b : VReg) (pr : PReg) (s : State) : Result :=
  s.vec2 f d a b pr (elem2 f s.mode FloatFmt.add fun x y => satIf sat f (x + y))
def execVsub (sat : Bool) (f : Fmt) (d a b : VReg) (pr : PReg) (s : State) : Result :=
  s.vec2 f d a b pr (elem2 f s.mode (fun g m x y => g.add m x y.negate) fun x y => satIf sat f (x - y))
def execVmul (f : Fmt) (d a b : VReg) (pr : PReg) (s : State) : Result :=
  s.vec2 f d a b pr (elem2 f s.mode FloatFmt.mul (· * ·))
def execVmulh (f : Fmt) (d a b : VReg) (pr : PReg) (s : State) : Result :=
  s.vec2 f d a b pr (elem2 f s.mode FloatFmt.mul fun x y => x * y / (2 ^ fmtWidth f : Nat))
def execVmin (f : Fmt) (d a b : VReg) (pr : PReg) (s : State) : Result := s.vec2 f d a b pr (elemMinMax f s.mode false)
def execVmax (f : Fmt) (d a b : VReg) (pr : PReg) (s : State) : Result := s.vec2 f d a b pr (elemMinMax f s.mode true)
def execVabs (f : Fmt) (d a : VReg) (pr : PReg) (s : State) : Result :=
  s.vec1 f d a pr fun x => match fmtFloat f with
    | some ff => (withSign ff x false, 0)
    | none => (intBits (fmtWidth f) (intValue f x).natAbs, 0)
def execVneg (f : Fmt) (d a : VReg) (pr : PReg) (s : State) : Result :=
  s.vec1 f d a pr fun x => match fmtFloat f with
    | some ff => (withSign ff x (!signOf ff x), 0)
    | none => (intBits (fmtWidth f) (-(intValue f x)), 0)
def execVand (f : Fmt) (d a b : VReg) (pr : PReg) (s : State) : Result :=
  s.vec2 f d a b pr (elemBits2 f fun x y => x &&& y)
def execVor (f : Fmt) (d a b : VReg) (pr : PReg) (s : State) : Result :=
  s.vec2 f d a b pr (elemBits2 f fun x y => x ||| y)
def execVxor (f : Fmt) (d a b : VReg) (pr : PReg) (s : State) : Result :=
  s.vec2 f d a b pr (elemBits2 f fun x y => x ^^^ y)
def execVandn (f : Fmt) (d a b : VReg) (pr : PReg) (s : State) : Result :=
  s.vec2 f d a b pr (elemBits2 f fun x y => x &&& (y ^^^ (2 ^ fmtWidth f - 1)))
def execVshl (f : Fmt) (d a b : VReg) (pr : PReg) (s : State) : Result :=
  s.vec2 f d a b pr (elemShift f fun _ x sh => x * 2 ^ sh)
def execVshr (f : Fmt) (d a b : VReg) (pr : PReg) (s : State) : Result :=
  s.vec2 f d a b pr (elemShift f fun _ x sh => x / 2 ^ sh)
def execVsar (f : Fmt) (d a b : VReg) (pr : PReg) (s : State) : Result :=
  s.vec2 f d a b pr (elemShift f fun _ x sh => sarBits f x sh)
def execVror (f : Fmt) (d a b : VReg) (pr : PReg) (s : State) : Result :=
  s.vec2 f d a b pr (elemShift f fun w x sh => x / 2 ^ sh + x * 2 ^ (w - sh))
def execVfma (f : Fmt) (d a b : VReg) (pr : PReg) (s : State) : Result :=
  s.vec3 f d a b pr (elemFused f s.mode false false)
def execVfms (f : Fmt) (d a b : VReg) (pr : PReg) (s : State) : Result :=
  s.vec3 f d a b pr (elemFused f s.mode false true)
def execVfnma (f : Fmt) (d a b : VReg) (pr : PReg) (s : State) : Result :=
  s.vec3 f d a b pr (elemFused f s.mode true false)
def execVexp2 (f : Fmt) (d a : VReg) (pr : PReg) (s : State) : Result :=
  s.vec1 f d a pr (elemSpecial f s.mode FloatFmt.exp2)
def execVlog2 (f : Fmt) (d a : VReg) (pr : PReg) (s : State) : Result :=
  s.vec1 f d a pr (elemSpecial f s.mode FloatFmt.log2)
def execVrcp (f : Fmt) (d a : VReg) (pr : PReg) (s : State) : Result :=
  s.vec1 f d a pr (elemSpecial f s.mode FloatFmt.rcp)
def execVrsq (f : Fmt) (d a : VReg) (pr : PReg) (s : State) : Result :=
  s.vec1 f d a pr (elemSpecial f s.mode FloatFmt.rsq)

/-! ### Comparisons (R103) -/

/-- The elements that a lane's bit reports. -/
def laneElems (f : Fmt) (n : Nat) : List Nat :=
  let c := fmtCount f
  if c = 32 then [n / 2] else (List.range (c / 64)).map (n * (c / 64) + ·)

/-- Bits from a list of truth values, bit 0 first. -/
def bitsOfList : List Bool → Nat
  | [] => 0
  | b :: t => b.toNat + 2 * bitsOfList t

/-- P[d] from a relation on active elements, and its NV flags (R96, R103). -/
def State.vecCompare (s : State) (f : Fmt) (d : PReg) (a b : VReg) (pr : PReg) (rel : FpNum → FpNum → Bool)
    (int : Int → Int → Bool) (quiet : Bool) : Result :=
  .next (s.needVector fun s =>
    let m := s.mode
    let one (x y : Nat) : Bool × Flags :=
      match fmtFloat f with
      | some ff =>
        let u := ff.decode m.fz x
        let v := ff.decode m.fz y
        (rel u v, Flags.when (u.isSNaN || v.isSNaN || (!quiet && (u.isNaN || v.isNaN))) flagNV)
      | none => (int (intValue f x) (intValue f y), 0)
    let rs := List.zipWith one (elems f (s.fr.getV a)) (elems f (s.fr.getV b))
    let on := List.zipWith (fun act r => (act && r.1, if act then r.2 else (0 : Flags))) (actives f (s.fr.getP pr)) rs
    let hits := on.toArray.map (·.1)
    let bits := bitsOfList ((List.range 64).map fun n => (laneElems f n).all fun e => hits.getD e false)
    ((s.putFr (s.fr.setP d (.ofNat 64 bits))).raise (on.foldl (fun g r => g ||| r.2) 0)).retire)

def execVcmpEq (f : Fmt) (d : PReg) (a b : VReg) (pr : PReg) (s : State) : Result :=
  s.vecCompare f d a b pr FpNum.eq (fun x y => x == y) true
def execVcmpLt (f : Fmt) (d : PReg) (a b : VReg) (pr : PReg) (s : State) : Result :=
  s.vecCompare f d a b pr FpNum.lt (fun x y => decide (x < y)) false
def execVcmpLe (f : Fmt) (d : PReg) (a b : VReg) (pr : PReg) (s : State) : Result :=
  s.vecCompare f d a b pr FpNum.le (fun x y => decide (x ≤ y)) false
def execVcmpUn (f : Fmt) (d : PReg) (a b : VReg) (pr : PReg) (s : State) : Result :=
  s.vecCompare f d a b pr (fun x y => x.isNaN || y.isNaN) (fun _ _ => false) true

/-! ### Data movement (R104) -/

def execVsel (f : Fmt) (d a b : VReg) (pr : PReg) (s : State) : Result :=
  .next (s.needVector fun s =>
    let xs := List.zipWith (fun (act : Bool) (p : Nat × Nat) => if act then p.1 else p.2) (actives f (s.fr.getP pr))
      (List.zip (elems f (s.fr.getV a)) (elems f (s.fr.getV b)))
    (s.putFr (s.fr.setVAll d (ofElems f xs))).retire)

def execVperm (f : Fmt) (d a b : VReg) (pr : PReg) (s : State) : Result :=
  .next (s.needVector fun s =>
    let src := (elems f (s.fr.getV a)).toArray
    s.writeElems f d pr ((elems f (s.fr.getV b)).map fun i => (src.getD (i % fmtCount f) 0, 0)))

def execVbcst (f : Fmt) (d : VReg) (a : SReg) (pr : PReg) (s : State) : Result :=
  .next (s.needVector fun s =>
    s.writeElems f d pr (List.replicate (fmtCount f) ((s.srcA a).toNat % 2 ^ fmtWidth f, 0)))

/-- An element extended to 64 bits: by sign for i formats, by zeros for all others (R104, R105). -/
def extendElem (f : Fmt) (x : Nat) : Word :=
  if fmtSigned f then sextNat (fmtWidth f) x else .ofNat 64 (x % 2 ^ fmtWidth f)

def execVext (f : Fmt) (d : SReg) (a : VReg) (b : SReg) (s : State) : Result :=
  .next (s.needVector fun s =>
    s.done1 d (extendElem f ((elems f (s.fr.getV a)).getD ((s.srcB b).toNat % fmtCount f) 0)))

/-! ### Reductions (R70, R105) -/

/-- One level of the tree: neighbours combined, a lone child passed up. -/
def reduceLevel (op : Nat → Nat → Nat × Flags) : List (Option Nat) → List (Option Nat) × Flags
  | some x :: some y :: t =>
    let (z, fl) := op x y
    let (r, g) := reduceLevel op t
    (some z :: r, fl ||| g)
  | some x :: none :: t => let (r, g) := reduceLevel op t; (some x :: r, g)
  | none :: y :: t => let (r, g) := reduceLevel op t; (y :: r, g)
  | [x] => ([x], 0)
  | [] => ([], 0)

/-- The tree over `2 ^ n` positions. -/
def reduceTree (op : Nat → Nat → Nat × Flags) : Nat → List (Option Nat) → Option Nat × Flags
  | 0, xs => ((xs.head?).getD none, 0)
  | n + 1, xs =>
    let (ys, fl) := reduceLevel op xs
    let (r, g) := reduceTree op n ys
    (r, fl ||| g)

/-- The format in which a reduction runs: f32 for bf16 and f16 (R70). -/
def reduceFmt : Fmt → Fmt
  | .bf16 | .f16 => .f32
  | f => f

/-- An active element as the tree's level 0 holds it: widened exactly to f32 from bf16 and f16, else as read. -/
def reduceLeaf (f : Fmt) (m : Mode) (x : Nat) : Nat × Flags :=
  if reduceFmt f = f then
    match fmtFloat f with
    | some ff => (ff.asRead m.fz x, 0)
    | none => (x, 0)
  else convert f (reduceFmt f) m x

/-- A reduction of the active elements into S[d] (R70, R105). -/
def State.vecReduce (s : State) (f : Fmt) (d : SReg) (a : VReg) (pr : PReg) (leaf : Nat → Nat × Flags)
    (op : Nat → Nat → Nat × Flags) (empty : Nat) : Result :=
  .next (s.needVector fun s =>
    let m := s.mode
    let level0 := List.zipWith (fun (act : Bool) x =>
        if act then
          let (y, g) := reduceLeaf f m x
          let (z, h) := leaf y
          (some z, g ||| h)
        else (none, (0 : Flags)))
      (actives f (s.fr.getP pr)) (elems f (s.fr.getV a))
    let (r, fl) := reduceTree op 8 (level0.map (·.1))
    let fl := level0.foldl (fun g x => g ||| x.2) fl
    ((s.ws d (extendElem (reduceFmt f) (r.getD empty))).raise fl).retire)

/-- The result of MAX (`wantMax`) or MIN with no active element (R70). -/
def reduceEmpty (f : Fmt) (wantMax : Bool) : Nat :=
  match fmtFloat f with
  | some ff => ff.inf wantMax
  | none => let (lo, hi) := intRange f; intBits (fmtWidth f) (if wantMax then lo else hi)

def execVredSum (f : Fmt) (d : SReg) (a : VReg) (pr : PReg) (s : State) : Result :=
  s.vecReduce f d a pr (fun x => (x, 0)) (elem2 (reduceFmt f) s.mode FloatFmt.add (· + ·)) 0
def execVredMax (f : Fmt) (d : SReg) (a : VReg) (pr : PReg) (s : State) : Result :=
  s.vecReduce f d a pr (fun x => (x, 0)) (elemMinMax (reduceFmt f) s.mode true) (reduceEmpty (reduceFmt f) true)
def execVredMin (f : Fmt) (d : SReg) (a : VReg) (pr : PReg) (s : State) : Result :=
  s.vecReduce f d a pr (fun x => (x, 0)) (elemMinMax (reduceFmt f) s.mode false) (reduceEmpty (reduceFmt f) false)
def execVredSsq (f : Fmt) (d : SReg) (a : VReg) (pr : PReg) (s : State) : Result :=
  s.vecReduce f d a pr (fun x => elem2 (reduceFmt f) s.mode FloatFmt.mul (· * ·) x x)
    (elem2 (reduceFmt f) s.mode FloatFmt.add (· + ·)) 0

/-! ### Conversion, scaling, constants (R107, R108) -/

/-- VCVT: the first M elements, governed as elements of the source format; the rest of V[d] stays (R107). -/
def execVcvt (f : Fmt) (d a : VReg) (pr : PReg) (tgt : Fmt) (s : State) : Result :=
  .next (s.needVector fun s =>
    let m := min (fmtCount f) (fmtCount tgt)
    let src := (elems f (s.fr.getV a)).take m
    let old := elems tgt (s.fr.getV d)
    let (r, fl) := mergeElems ((actives f (s.fr.getP pr)).take m) (old.take m) (src.map (convert f tgt s.mode))
    ((s.putFr (s.fr.setV d (ofElems tgt (r ++ old.drop m)))).raise fl).retire)

/-- A value times 2^k; beyond 5,000 every format has overflowed or underflowed alike. -/
def scaleNum (k : Int) : FpNum → FpNum
  | .fin n m e => .fin n m (e + max (-5000) (min 5000 k))
  | x => x

def execVscale (f : Fmt) (d a : VReg) (pr : PReg) (imm : Word) (s : State) : Result :=
  s.vec1 f d a pr (elemSpecial f s.mode fun ff m x => ff.round m (scaleNum imm.toInt x))

/-- The immediate converted to a format (R108). -/
def immElem (f : Fmt) (m : Mode) (imm : Word) : Nat × Flags :=
  match fmtFloat f, fmtTaper f with
  | some ff, _ => ff.round m (numOfInt imm.toInt)
  | none, some n => taperedRound n (numOfInt imm.toInt)
  | none, none => (intBits (fmtWidth f) imm.toInt, 0)

def execVli (f : Fmt) (d : VReg) (pr : PReg) (imm : Word) (s : State) : Result :=
  .next (s.needVector fun s => s.writeElems f d pr (List.replicate (fmtCount f) (immElem f s.mode imm)))

/-! ### Scratchpad access (R109 to R111) -/

/-- The alignment of an element's address: none for t6 (R110). -/
def memAlign (f : Fmt) : Nat := if f = .t6 then 1 else fmtWidth f / 8

/-- The unit-stride address of an element (R109). -/
def unitAddr (f : Fmt) (base : Word) (e : Nat) : Word :=
  base + .ofNat 64 (if f = .t6 then 3 * (e / 4) else e * (fmtWidth f / 8))

/-- The offset that lane L(e) of V[b] gives an element (R109). -/
def gatherAddr (f : Fmt) (base : Word) (lanes : Array Nat) (e : Nat) : Word :=
  base + .ofNat 64 (lanes.getD (e * 64 / fmtCount f) 0)

/-- The active elements with their addresses, in ascending order. -/
def State.activeAddrs (s : State) (f : Fmt) (pr : PReg) (addr : Nat → Word) : List (Nat × Nat) :=
  (((List.range (fmtCount f)).zip (actives f (s.fr.getP pr))).filter (·.2)).map fun e => (e.1, (addr e.1).toNat)

/-- An element read from memory: for t6 the bits of its place in the group. -/
def State.memElem (s : State) (f : Fmt) (a place : Nat) : Nat :=
  loadedElem f (leValue (s.localRead a (memBytes f))) place

/-- The checks of every active element before any moves (R110), and poison (R327). -/
def State.vecFault (s : State) (f : Fmt) (as : List (Nat × Nat)) (load : Bool) : Option State :=
  match firstLocalFault s.fr (memBytes f) (memAlign f) (as.map (·.2)) with
  | some (c, a) => some (s.trap c (.ofNat 64 a))
  | none =>
    match if load then as.find? (fun e => s.poisoned (localKey s.here e.2) (memBytes f)) else none with
    | some (_, a) => some (s.trap 0x1F (.ofNat 64 a) 1)
    | none => none

/-- A vector load: every active element from its address (R109 to R111). -/
def State.vecLoad (s : State) (f : Fmt) (d : VReg) (pr : PReg) (addr : Nat → Word) (bc : Bool := false) : State :=
  let as := s.activeAddrs f pr addr
  match s.vecFault f as true with
  | some t => t
  | none =>
    if as.isEmpty then s.retire
    else s.writeElems f d pr ((List.range (fmtCount f)).map fun e =>
      if (s.fr.getP pr).getLsbD (e * 64 / fmtCount f) then
        (s.memElem f (addr e).toNat (if bc then 0 else e % 4), 0) else (0, 0))

/-- One element stored; a t6 element leaves the other bits of its group as they are (R109). -/
def State.storeElem (s : State) (f : Fmt) (a e x : Nat) : State :=
  if f = .t6 then
    let g := leValue (s.localRead a 3)
    let p := 64 ^ (e % 4)
    s.localWrite a (leBytes 3 (g - g / p % 64 * p + x % 64 * p))
  else s.localWrite a (leBytes (memBytes f) x)

/-- A vector store: active elements in ascending order, so the highest of those at one address remains (R109, R111). -/
def State.vecStore (s : State) (f : Fmt) (d : VReg) (pr : PReg) (addr : Nat → Word) : State :=
  let as := s.activeAddrs f pr addr
  match s.vecFault f as false with
  | some t => t
  | none =>
    let xs := (elems f (s.fr.getV d)).toArray
    (as.foldl (fun t e => t.storeElem f e.2 e.1 (xs.getD e.1 0)) s).retire

/-- The 32-bit lanes of a register. -/
def lanesOf (v : VVal) : Array Nat := (elems .n32 v).toArray

def execVldlUnit (f : Fmt) (d : VReg) (a : SReg) (pr : PReg) (s : State) : Result :=
  .next (s.needVector fun s => s.vecLoad f d pr (unitAddr f (s.srcA a)))
def execVldlStr (f : Fmt) (d : VReg) (a b : SReg) (pr : PReg) (s : State) : Result :=
  .next (s.needVector fun s => s.vecLoad f d pr fun e => s.srcA a + .ofNat 64 e * s.srcB b)
def execVldlGat (f : Fmt) (d : VReg) (a : SReg) (b : VReg) (pr : PReg) (s : State) : Result :=
  .next (s.needVector fun s => s.vecLoad f d pr (gatherAddr f (s.srcA a) (lanesOf (s.fr.getV b))))
def execVldlBc (f : Fmt) (d : VReg) (a : SReg) (pr : PReg) (s : State) : Result :=
  .next (s.needVector fun s => s.vecLoad f d pr (fun _ => s.srcA a) true)
def execVstlUnit (f : Fmt) (d : VReg) (a : SReg) (pr : PReg) (s : State) : Result :=
  .next (s.needVector fun s => s.vecStore f d pr (unitAddr f (s.srcA a)))
def execVstlStr (f : Fmt) (d : VReg) (a b : SReg) (pr : PReg) (s : State) : Result :=
  .next (s.needVector fun s => s.vecStore f d pr fun e => s.srcA a + .ofNat 64 e * s.srcB b)
def execVstlSca (f : Fmt) (d : VReg) (a : SReg) (b : VReg) (pr : PReg) (s : State) : Result :=
  .next (s.needVector fun s => s.vecStore f d pr (gatherAddr f (s.srcA a) (lanesOf (s.fr.getV b))))

/-! ### Predicates (R112) -/

/-- P[d] written and the group retired. -/
def State.doneP (s : State) (d : PReg) (w : Word) : State := (s.putFr (s.fr.setP d w)).retire

def execPand (d a b : PReg) (s : State) : Result :=
  .next (s.needVector fun s => s.doneP d (s.fr.getP a &&& s.fr.getP b))
def execPor (d a b : PReg) (s : State) : Result :=
  .next (s.needVector fun s => s.doneP d (s.fr.getP a ||| s.fr.getP b))
def execPxor (d a b : PReg) (s : State) : Result :=
  .next (s.needVector fun s => s.doneP d (s.fr.getP a ^^^ s.fr.getP b))
def execPnot (d a : PReg) (s : State) : Result := .next (s.needVector fun s => s.doneP d (~~~(s.fr.getP a)))
def execPcnt (d : SReg) (a : PReg) (s : State) : Result :=
  .next (s.needVector fun s => s.done1 d (.ofNat 64 (onesCount (s.fr.getP a) 64)))
def execPffs (d : SReg) (a : PReg) (s : State) : Result :=
  .next (s.needVector fun s => s.done1 d (.ofNat 64 (trailingZeros (s.fr.getP a) 64 0)))
def execPset (d : PReg) (a : SReg) (s : State) : Result := .next (s.needVector fun s => s.doneP d (s.srcA a))

end Sys2Proof.Machine
end

