-- ==== Sys2Proof/Machine/MatrixUnit.lean ====
section
/-! DEFINITION. Page 3: the matrix bank and its owner (R11, R12, R133, R134), tile loads and stores, matrix multiplies,
accumulators and conversions (R114 to R123), and the steps that end a multiply or move the bank (R118, R318). -/

namespace Sys2Proof.Machine

/-! ### The bank (R11, R12, R133) -/

/-- The local address of a frame's matrix save area (R12). -/
def saveArea (frame : Nat) : Nat := 0x78000 - frame % 4 * 0x8000

/-- The bank in the layout of R12: tiles at +0x800 n, accumulators at +0x4000 + 0x1000 n. -/
def Core.bankBytes (c : Core) : List Byte := c.tiles.toList.flatMap Vector.toList ++ c.accs.toList.flatMap accBytes

/-- The bank read back from that layout. -/
def Core.loadBank (c : Core) (bs : List Byte) : Core :=
  let a := bs.toArray
  { c with
    tiles := Vector.ofFn fun t => Vector.ofFn fun i => a.getD (t.val * 0x800 + i.val) 0
    accs := Vector.ofFn fun t => Vector.ofFn fun i =>
      let o := 0x4000 + t.val * 0x1000 + 4 * i.val
      .ofNat 32 (leValue [a.getD o 0, a.getD (o + 1) 0, a.getD (o + 2) 0, a.getD (o + 3) 0]) }

/-- The bank with every tile and accumulator zero (R11). -/
def Core.zeroBank (c : Core) : Core :=
  { c with
    tiles := Vector.replicate 8 (Vector.replicate 2048 0), accs := Vector.replicate 4 (Vector.replicate 1024 0)
    poisonT := 0, poisonA := 0 }

/-- The places in the layout of R12 of the bank's registers: tiles, then accumulators. -/
def bankPlaces : List (Nat × Nat) :=
  (List.range 8).map (fun t => (0x800 * t, 0x800)) ++ (List.range 4).map fun a => (0x4000 + 0x1000 * a, 0x1000)

/-- The sectors, counted from an area's first, that hold the bank's poisoned registers (R327). -/
def Core.poisonedSectors (c : Core) : List Nat :=
  (bankPlaces.zip (List.range 12)).flatMap fun ((o, n), k) =>
    if (if k < 8 then c.poisonT.getLsbD k else c.poisonA.getLsbD (k - 8)) then sectorsOf o n else []

/-- The bank as read from an area: a register with a poisoned sector in it is poisoned (R327). -/
def State.bankPoison (s : State) (at_ : Nat) (c : Core) : Core :=
  let bit (k : Nat) : Nat :=
    let (o, n) := bankPlaces.getD k (0, 0)
    (s.poisoned (at_ + o) n).toNat
  { c with
    poisonT := .ofNat 8 (((List.range 8).map fun k => bit k * 2 ^ k).foldl (· + ·) 0)
    poisonA := .ofNat 4 (((List.range 4).map fun k => bit (k + 8) * 2 ^ k).foldl (· + ·) 0) }

/-- The bank written to an area in the layout of R12, its poison with it (R133, R320, R327). -/
def State.putBank (s : State) (at_ : Nat) (c : Core) : State :=
  (s.homeWrite at_ c.bankBytes).markPoison (c.poisonedSectors.map (· + at_ / 32))

/-- The owner's bank written to its save area (R133). -/
def State.bankOut (s : State) (core : Nat) : State :=
  match (s.coreAt core).owner with
  | some f => s.putBank (localKey core (saveArea f.toNat)) (s.coreAt core)
  | none => s

/-- The end of an exchange: a frame becomes the owner, having read its save area or, the first time in its chunk, zeros
(R11, R133), and holds the bank against further exchanges (R134). The MATRIX bit of its STATE word follows (R320). -/
def State.bankIn (s : State) (n : Nat) : State :=
  let core := n / 4
  let f := s.frameAt n
  let c := s.coreAt core
  let area := localKey core (saveArea n)
  let c1 := if f.ownedMatrix then s.bankPoison area (c.loadBank (s.mem.read area 0x8000)) else c.zeroBank
  let s1 := (s.putCore core { c1 with owner := some (.ofNat 2 n), hold := true, used := false }).putFrame n
    { f with ownedMatrix := true }
  s1.putCtx f.handle.toNat { s1.ctxAt f.handle.toNat with matrix := true }

/-- The bank as a matrix group of the issuing frame finds it: one that nobody owns or waits for is its own (R11, R133). -/
def State.claimBank (s : State) : State :=
  if s.co.owner = none && s.co.swapQueue.isEmpty then s.bankIn s.cur else s

/-- The issuing frame enters SWAP, at the tail of those that wait for the bank (R133). -/
def State.enterSwap (s : State) : State :=
  let me : BitVec 2 := .ofNat 2 s.cur
  (s.putFr { s.fr with status := .swap }).putCo
    { s.co with swapQueue := s.co.swapQueue ++ [me], issuing := none, lastFrame := me }

/-- A matrix group: the class check of R135, then the bank. While a started multiply occupies the unit the group waits;
while another frame owns the bank, or others queue for it, the frame waits in SWAP (R11, R133). A bank that nobody owns
or wants changes hands within the group's own step (log entry 82). -/
def State.needBank (s : State) (k : State → State) : State :=
  s.needMatrix fun s =>
    let me : BitVec 2 := .ofNat 2 s.cur
    if s.co.owner = some me then (if s.co.tmma.isSome then s else k s)
    else if s.co.owner = none && s.co.swapQueue.isEmpty then k s.claimBank
    else s.enterSwap

/-! ### R115 -/

/-- The addresses of `n` memory rows. -/
def rowAddrs (base stride : Word) (n : Nat) : List Nat := (List.range n).map fun r => (base + .ofNat 64 r * stride).toNat

/-- The first faulty row (R115): multiples of 16, in ascending order; poison in what is read (R327). -/
def State.rowFault (s : State) (as : List Nat) (size : Nat) (load : Bool) : Option State :=
  match firstLocalFault s.fr size 16 as with
  | some (c, a) => some (s.trap c (.ofNat 64 a))
  | none =>
    match if load then as.find? (fun a => s.poisoned (localKey s.here a) size) else none with
    | some a => some (s.trap 0x1F (.ofNat 64 a) 1)
    | none => none

/-- T[d] written and the group retired. -/
def State.doneT (s : State) (d : TReg) (x : TileVal) : State := (s.putCo (s.co.setT d x)).retire
/-- T[d] written in part and the group retired. -/
def State.doneTPart (s : State) (d : TReg) (x : TileVal) : State := (s.putCo (s.co.setTPart d x)).retire
/-- A[d] written and the group retired. -/
def State.doneA (s : State) (d : AReg) (x : AccVal) : State := (s.putCo (s.co.setA d x)).retire

def execTld (f : Fmt) (d : TReg) (a b : SReg) (s : State) : Result :=
  .next (s.needBank fun s =>
    let as := rowAddrs (s.srcA a) (s.srcB b) 32
    match s.rowFault as (rowSize f) true with
    | some t => t
    | none => s.doneT d (loadedTile f false (as.flatMap fun x => s.localRead x (rowSize f))))

/-- The memory rows that a transposing load reads and their size (R115). -/
def columnRows (f : Fmt) : Nat × Nat := if f = .t8 then (64, 32) else (32, 64)

def execTldT (f : Fmt) (d : TReg) (a b : SReg) (s : State) : Result :=
  .next (s.needBank fun s =>
    let (n, size) := columnRows f
    let as := rowAddrs (s.srcA a) (s.srcB b) n
    match s.rowFault as size true with
    | some t => t
    | none => s.doneT d (loadedTile f true (as.flatMap fun x => s.localRead x size)))

def execTst (f : Fmt) (d : TReg) (a b : SReg) (s : State) : Result :=
  .next (s.needBank fun s =>
    let as := rowAddrs (s.srcA a) (s.srcB b) 32
    match s.rowFault as (rowSize f) false with
    | some t => t
    | none =>
      ((as.zip (tileRows (s.co.getT d))).foldl (fun t x => t.localWrite x.1 (x.2.take (rowSize f))) s).retire)

/-! ### R116 to R119 -/

/-- The element format of a sampled FMT code, where a TMMA takes it. -/
def mmaFmt (c : Nat) : Option Fmt :=
  match c with
  | 6 => some .bf16 | 7 => some .f16 | 9 => some .t8 | 10 => some .t6 | _ => none

/-- The pair of formats is one of R67. -/
def mmaPair (a b : Nat) : Option (Fmt × Fmt) :=
  match mmaFmt a, mmaFmt b with
  | some x, some y => if (fmtTaper x).isSome == (fmtTaper y).isSome then some (x, y) else none
  | _, _ => none

/-- The scale addresses that a TMMA samples: the registers, or in a repetition the staggered ones, 32-byte aligned
(R13, R21). -/
def State.scaleAddrs (s : State) : Nat × Nat :=
  let cut (w : Word) : Nat := w.toNat % 2 ^ 19 / 32 * 32
  if s.issue.inRep then (cut s.issue.scla, cut s.issue.sclb) else (cut s.fr.scla, cut s.fr.sclb)

/-- The size of the block that tmma.sp reads (R117). -/
def blockSize (f : Fmt) : Nat := if f = .t6 then 1536 else 2048

/-- The start of a TMMA (R117, R118): the checks in order, then the samples and the shadow; the group retires while the
unit works. -/
def State.startMma (s : State) (kind : MmaKind) (d : AReg) (a b : TReg) (block : Word) : State :=
  let f := s.fr
  match mmaPair (f.fmta.toNat % 16) (f.fmtb.toNat % 16) with
  | none => s.illegal
  | some (_, fb) =>
    let scaled := f.fmta.getLsbD 4
    let (sa, sb) := s.scaleAddrs
    let bsize := blockSize fb
    let fault : Option (Nat × Nat) :=
      match if scaled then firstLocalFault f 128 1 [sa, sb] else none with
      | some x => some x
      | none => if kind = .sp then firstLocalFault f bsize 32 [block.toNat] else none
    match fault with
    | some (c, x) => s.trap c (.ofNat 64 x)
    | none =>
      let reads := (if scaled then [(sa, 128), (sb, 128)] else []) ++ (if kind = .sp then [(block.toNat, bsize)] else [])
      match reads.find? fun r => s.poisoned (localKey s.here r.1) r.2 with
      | some (x, _) => s.trap 0x1F (.ofNat 64 x) 1
      | none =>
        let scales (x : Nat) : List (BitVec 32) :=
          if scaled then (chunks 4 32 (s.localRead x 128)).map (.ofNat 32) else []
        let t : Tmma :=
          { frame := s.cur, kind := kind, d := d, a := a, b := b, fmta := .ofNat 4 f.fmta.toNat,
            fmtb := .ofNat 4 f.fmtb.toNat, scaled := scaled, rm := .ofNat 3 f.fcsr.toNat, fz := f.fcsr.getLsbD 3,
            scaleA := scales sa, scaleB := scales sb,
            block := if kind = .sp then s.localRead block.toNat bsize else [],
            shadow := s.co.getA d, pc := if s.issue.inRep then s.issue.pc else f.pc, len := s.issue.len,
            inRep := s.issue.inRep, rep := if s.issue.inRep then f.rep else {} }
        (s.putCo { s.co with tmma := some t }).retire

def execTmma (d : AReg) (a b : TReg) (s : State) : Result := .next (s.needBank fun s => s.startMma .plain d a b 0)
def execTmmaBt (d : AReg) (a b : TReg) (s : State) : Result := .next (s.needBank fun s => s.startMma .bt d a b 0)
def execTmmaSp (d : AReg) (a : TReg) (b : SReg) (s : State) : Result :=
  .next (s.needBank fun s => s.startMma .sp d a 0 (s.srcB b))

/-- An operand's value; NaR counts as a NaN that raises NV (R68). -/
def mmaNum (f : Fmt) (fz : Bool) (x : Nat) : FpNum := (numOf f fz x).getD (.nan true)

/-- The exact sum of exact products; none where one is 0 times infinity or infinities of both signs meet (R68). Where the
sum is zero R61 gives a sign for two terms only; for 32 or 64 the model adds them from the last to the first and takes the
sign that each addition gives: -0 where every product is -0 (log entry 83). -/
def dotExact (rm : Nat) : List (FpNum × FpNum) → Option FpNum
  | [] => some (.fin false 0 0)
  | [(x, y)] => x.mul y
  | (x, y) :: t =>
    match x.mul y, dotExact rm t with
    | some p, some r => p.add rm r
    | _, _ => none

/-- One accumulator element of a TMMA (R68). -/
def mmaElem (m : Mode) (scale : Option (BitVec 32 × BitVec 32)) (acc : BitVec 32) (xs : List (FpNum × FpNum)) :
    BitVec 32 × Flags :=
  let c := fF32.decode m.fz acc.toNat
  let bad := xs.any fun p => p.1.isNaN || p.2.isNaN
  if bad || c.isNaN then (.ofNat 32 fF32.nanBits, Flags.when (bad || c.isSNaN) flagNV)
  else
    match dotExact m.rm xs with
    | none => (.ofNat 32 fF32.nanBits, flagNV)
    | some sum =>
      let (p, f1) := fF32.round m sum
      let (q, f2) :=
        match scale with
        | none => (p, (0 : Flags))
        | some (u, v) =>
          let (sc, g1) := fF32.mul m (fF32.decode m.fz u.toNat) (fF32.decode m.fz v.toNat)
          let (r, g2) := fF32.mul m (fF32.decode m.fz p) (fF32.decode m.fz sc)
          (r, g1 ||| g2)
      let (r, f3) := fF32.add m c (fF32.decode m.fz q)
      (.ofNat 32 r, f1 ||| f2 ||| f3)

/-- The B operand of a TMMA as rows by k of columns j (R116). -/
def Tmma.bGrid (t : Tmma) (fb : Fmt) (tile : TileVal) : Array (Array Nat) :=
  let g := tileElems fb tile
  let taper := (fmtTaper fb).isSome
  let k := if taper then 64 else 32
  match t.kind with
  | .sp =>
    let w := if fb = .t6 then 24 else if fb = .t8 then 32 else 64
    ((List.range k).map fun r =>
      let row := (t.block.drop (w * r)).take w
      (if fb = .t6 then unpack6 8 row else chunks (fmtWidth fb / 8) 32 row).toArray).toArray
  | .plain =>
    if taper then ((List.range k).map fun r => ((List.range 32).map fun j => gridAt g j r 0).toArray).toArray else g
  | .bt => ((List.range k).map fun r => ((List.range 32).map fun j => gridAt g j r 0).toArray).toArray

/-- The accumulator that a started TMMA leaves and the flags it raises (R68). -/
def Tmma.result (t : Tmma) (c : Core) : AccVal × Flags :=
  match mmaPair t.fmta.toNat t.fmtb.toNat with
  | none => (t.shadow, 0)
  | some (fa, fb) =>
    let m : Mode := { rm := t.rm.toNat, fz := t.fz }
    let ga := (tileElems fa (c.getT t.a)).map fun r => r.map (mmaNum fa t.fz)
    let gb := (t.bGrid fb (c.getT t.b)).map fun r => r.map (mmaNum fb t.fz)
    let k := if (fmtTaper fa).isSome then 64 else 32
    let zero : FpNum := .fin false 0 0
    let out := (List.range 1024).map fun e =>
      let i := e / 32
      let j := e % 32
      let xs := (List.range k).map fun q => (gridAt ga i q zero, gridAt gb q j zero)
      let sc := if t.scaled then some (t.scaleA.getD i 0, t.scaleB.getD j 0) else none
      mmaElem m sc (t.shadow.toArray.getD e 0) xs
    (toAcc (out.map (·.1)), out.foldl (fun g x => g ||| x.2) 0)

/-- A started TMMA completes: its result is written, its flags are raised in its frame and its shadow is released
(R118, R119). -/
def execTmmaComplete (c : Nat) (s : State) : Result :=
  .next (match (s.coreAt c).tmma with
    | none => s
    | some t =>
      let co := s.coreAt c
      let (x, fl) := t.result co
      let f := s.frameAt t.frame
      ((s.sampleFlags c).putCore c { co.setA t.d x with tmma := none }).putFrame t.frame { f with fcsr := raiseIn f.fcsr fl })

/-- The frame of a TMMA at a precise trap of it: for a captured one the sequencer stands at it (R23), also where its repetition has
drained and a later one runs or is being captured, which is then dropped (log entry 84). -/
def Tmma.trapped (t : Tmma) (f : Frame) : Frame := if t.inRep then f.suspendAt t.rep else f

/-- A residue check detects a soft error in the running TMMA: it is replayed from its shadow, and at the third detection
precise MCHECK is raised at it with DETAIL 3 (R318), for a captured one with the record of R23. -/
def execMatrixResidueError (c : Nat) (s : State) : Result :=
  .next (match (s.coreAt c).tmma with
    | none => s
    | some t =>
      let co := s.coreAt c
      if t.errors < 2 then s.putCore c { co with tmma := some { t with errors := t.errors + 1 } }
      else
        let s1 := s.putCore c { co.setA t.d t.shadow with tmma := none }
        (s1.putFrame t.frame (t.trapped (s1.frameAt t.frame))).takeTrapIn t.frame 0x1F 3 t.pc 0 t.len 0)

/-! ### R120 to R123 -/

def execAzero (d : AReg) (s : State) : Result := .next (s.needBank fun s => s.doneA d (Vector.replicate 1024 0))

def execAld (d : AReg) (a : SReg) (s : State) : Result :=
  .next (s.needBank fun s =>
    let ea := s.srcA a
    match s.fr.localFault ea.toNat 4096 32 with
    | some c => s.trap c ea
    | none =>
      if s.poisoned (localKey s.here ea.toNat) 4096 then s.trap 0x1F ea 1
      else s.doneA d (accOfBytes (s.localRead ea.toNat 4096)))

def execAst (d : AReg) (a : SReg) (s : State) : Result :=
  .next (s.needBank fun s =>
    let ea := s.srcA a
    match s.fr.localFault ea.toNat 4096 32 with
    | some c => s.trap c ea
    | none => (s.localWrite ea.toNat (accBytes (s.co.getA d))).retire)

def execAadd (d a : AReg) (s : State) : Result :=
  .next (s.needBank fun s =>
    let m := s.mode
    let xs := List.zipWith (fun x y : BitVec 32 => fF32.add m (fF32.decode m.fz x.toNat) (fF32.decode m.fz y.toNat))
      (s.co.getA d).toList (s.co.getA a).toList
    (s.raise (xs.foldl (fun g x => g ||| x.2) 0)).doneA d (toAcc (xs.map fun x => .ofNat 32 x.1)))

/-- One element converted out of an accumulator; SAT replaces an infinity by the largest finite value, with NX
(R121). -/
def acvtElem (f : Fmt) (m : Mode) (sat : Bool) (x : BitVec 32) : Nat × Flags :=
  let (y, fl) := convert .f32 f m x.toNat
  match fmtFloat f with
  | some ff =>
    if sat && y % 2 ^ (ff.ebits + ff.fbits) = ff.infBits then (y - 1, fl ||| flagNX) else (y, fl)
  | none => (y, fl)

def execAcvt (f : Fmt) (d : TReg) (a : AReg) (mode : BitVec 2) (s : State) : Result :=
  .next (s.needBank fun s =>
    let m := s.mode
    let src := ((s.co.getA a).toList.map (acvtElem f m mode[1])).toArray
    let rows := (tileRows (s.co.getT d)).zip (List.range 32) |>.map fun (old, i) =>
      let new := (List.range 32).map fun j => (src.getD (32 * i + j) (0, 0)).1
      if (fmtTaper f).isSome then
        let xs := rowElems f old
        rowBytes f (if mode[0] then xs.take 32 ++ new else new ++ xs.drop 32)
      else rowBytes f new
    let t := s.raise (src.foldl (fun g x => g ||| x.2) 0)
    if (fmtTaper f).isSome then t.doneTPart d (ofRows rows) else t.doneT d (ofRows rows))

def execAcvtV (f : Fmt) (d : VReg) (a : AReg) (b : SReg) (s : State) : Result :=
  .next (s.needBank fun s =>
    let m := s.mode
    let src := (s.co.getA a).toArray
    let row0 := (s.srcB b).toNat % 32
    let xs := (List.range (fmtCount f)).map fun e =>
      let x := src.getD (32 * ((row0 + e / 32) % 32) + e % 32) 0
      if f = .f32 then (x.toNat, (0 : Flags)) else convert .f32 f m x.toNat
    ((s.putFr (s.fr.setVAll d (ofElems f (xs.map (·.1))))).raise (xs.foldl (fun g x => g ||| x.2) 0)).retire)

def execTmov (f : Fmt) (d : TReg) (a : VReg) (b : SReg) (s : State) : Result :=
  .next (s.needBank fun s =>
    let row0 := (s.srcB b).toNat % 32
    let v := (s.fr.getV a).toList
    let w := rowSize f
    let rows := (tileRows (s.co.getT d)).zip (List.range 32) |>.map fun (old, r) =>
      let q := (r + 32 - row0) % 32
      if q < 4 then (v.drop (w * q)).take w ++ List.replicate (64 - w) 0 else old
    s.doneTPart d (ofRows rows))

def execTtrn (f : Fmt) (d a : TReg) (s : State) : Result :=
  .next (s.needBank fun s =>
    let g := tileElems f (s.co.getT a)
    s.doneT d (ofRows ((List.range 32).map fun r => rowBytes f ((List.range 32).map fun c => gridAt g c r 0))))

/-! ### The bank among frames (R133, R134) -/

/-- A frame that has got the bank executes again the TMMA that its switch-out stopped, before any other group of it issues
(R318). -/
def State.startMmaAgain (s : State) (n : Nat) : State :=
  let f := s.frameAt n
  match f.replay with
  | none => s
  | some t =>
    let c := s.coreAt (n / 4)
    (s.putFrame n { f with replay := none }).putCore (n / 4)
      { c with tmma := some { t with frame := n, shadow := c.getA t.d, replayed := true } }

/-- The owner of a core's bank has loads of tiles or accumulators left to perform, or stores of them: they are issued groups,
which complete (R18). -/
def State.bankOwes (s : State) (c : Nat) : Bool :=
  match (s.coreAt c).owner with
  | none => false
  | some k => (s.frameAt (c * 4 + k.toNat)).late.any fun x => match x.what with
    | .pad (.tile _ _ _) _ | .pad (.acc _) _ => true
    | _ => false

/-- The exchange ends: the owner's bank is in its save area, the requester reads its own or zeros, becomes owner and
READY. It waits for a started TMMA of the owner, for its loads and for its protection to end. A frame that is told to stop
gets no bank: its read is cancelled (R319). -/
def execMatrixBankExchange (c : Nat) (s : State) : Result :=
  let co := s.coreAt c
  .next (match co.swapQueue with
    | [] => s
    | r :: rest =>
      if co.tmma.isSome || (co.owner.isSome && co.hold) || s.bankOwes c then s
      else if (s.frameAt (c * 4 + r.toNat)).stopping.isSome then s.putCore c { co with swapQueue := rest }
      else
        let n := c * 4 + r.toNat
        let s1 := (s.bankOut c).bankIn n
        ((s1.putCore c { s1.coreAt c with swapQueue := rest }).putFrame n
          { s1.frameAt n with status := .ready }).startMmaAgain n)

/-- The owner's 1,024 cycles of protection run out: only while it is the core's issuing frame do they count, and from the end
of the exchange it has to become so first (R134; time is log entry 10). -/
def execBankHoldExpiry (c : Nat) (s : State) : Result :=
  let co := s.coreAt c
  .next (if co.owner.isSome && co.issuing == co.owner then s.putCore c { co with hold := false } else s)

end Sys2Proof.Machine
end

