-- ==== Sys2Proof/Machine/Repeat.lean ====
section
/-! DEFINITION. The repeat sequencer (R20 to R24, R124 to R127): what may be captured, which fields may be staggered, and
the issue of a captured group with its staggered fields. -/

namespace Sys2Proof.Machine

/-- The scalar and vector registers that a group reads (R18, R327). -/
def sourceRegs : Instr → List SReg × List VReg
  | .add _ a b | .sub _ a b | .and _ a b | .or _ a b | .xor _ a b | .andn _ a b | .sll _ a b | .srl _ a b
  | .sra _ a b | .ror _ a b | .slt _ a b | .sltn _ a b | .mul _ a b | .mulh _ a b | .mulhn _ a b | .seq _ a b
  | .div _ a b | .divn _ a b | .rem _ a b | .remn _ a b | .min _ a b | .max _ a b | .minn _ a b | .maxn _ a b
  | .beq a b _ | .bne a b _ | .blt a b _ | .bge a b _ | .bltn a b _ | .bgen a b _ | .fadd _ _ a b
  | .fsub _ _ a b | .fmul _ _ a b | .fdiv _ _ a b | .fmin _ _ a b | .fmax _ _ a b | .fsgnj _ _ a b
  | .feq _ _ a b | .flt _ _ a b | .fle _ _ a b | .fun _ _ a b | .vldlStr _ _ a b _ | .tld _ _ a b
  | .tldT _ _ a b | .tst _ _ a b | .amoadd _ _ a b _ | .amoand _ _ a b _ | .amoor _ _ a b _ | .amoxor _ _ a b _
  | .amomin _ _ a b _ | .amomax _ _ a b _ | .amominn _ _ a b _ | .amomaxn _ _ a b _ | .amoswp _ _ a b _
  | .mkga _ a b | .oinit _ a b | .cntadd _ a b | .cntaddP a b | .cntwait _ a b | .cntwaitNw _ a b
  | .barwait _ a b | .baradj _ a b | .vcsub _ a b | .vcack _ a b | .vcunsub _ a b | .cpy _ a b | .cpyt _ a b
  | .cpyl _ a b | .bspart _ a b | .xfer _ a b | .xferCh _ a b | .coll _ a b | .mcst _ a b | .revwin _ a b
  | .hndset _ a b | .ctxsave _ a b | .ctxload _ a b | .tlbinv _ a b => ([a, b], [])
  | .addi _ a _ | .andi _ a _ | .ori _ a _ | .xori _ a _ | .slli _ a _ | .srli _ a _ | .srai _ a _ | .slti _ a _
  | .clz _ a | .ctz _ a | .popc _ a | .sext _ a _ | .ldl _ a _ _ | .ldln _ a _ _ | .jr a | .jalr a | .ret a
  | .fsqrt _ _ a | .fclass _ _ a | .fabs _ _ a | .fneg _ _ a | .fcvtFI _ _ _ a | .fcvtIF _ _ _ a | .fcvtFF _ _ a
  | .fcvtT _ _ _ a _ | .vbcst _ _ a _ | .vldlUnit _ _ a _ | .vldlBc _ _ a _ | .pset _ a | .ald _ a | .ast _ a
  | .ldg _ a _ _ _ | .ldgn _ a _ _ _ | .cclean a _ | .cinv a _ | .cdisc a _ | .pref a _ | .cpin _ a
  | .cunpin _ a | .odestroy _ a | .oquery _ a _ | .okill _ a | .bararr _ a | .baraw _ a | .tlkacq _ a
  | .tlkacqNw _ a | .tlkrel _ a | .bqpop _ a _ | .bqpopNw _ a _ | .cvwait _ a | .cvsig _ a | .cvbc _ a
  | .vcpub _ a | .vcfin _ a | .vcrsv _ a | .vcstop _ a | .twany _ a | .twall _ a | .tffr _ a | .tclr a
  | .bsstat _ a | .bsabort _ a | .regwin _ a | .crw a _ | .crx _ a _ => ([a], [])
  | .lih d _ => ([d], [])
  | .stl d a _ _ | .stg d a _ _ _ | .bscall d a _ => ([d, a], [])
  | .fma _ d a b | .fms _ d a b | .fnma _ d a b | .amocas _ d a b _ => ([d, a, b], [])
  | .vadd _ _ _ a b _ | .vsub _ _ _ a b _ | .vmul _ _ a b _ | .vmulh _ _ a b _ | .vmin _ _ a b _
  | .vmax _ _ a b _ | .vand _ _ a b _ | .vor _ _ a b _ | .vxor _ _ a b _ | .vandn _ _ a b _ | .vshl _ _ a b _
  | .vshr _ _ a b _ | .vsar _ _ a b _ | .vror _ _ a b _ | .vcmpEq _ _ a b _ | .vcmpLt _ _ a b _
  | .vcmpLe _ _ a b _ | .vcmpUn _ _ a b _ | .vsel _ _ a b _ | .vperm _ _ a b _ => ([], [a, b])
  | .vabs _ _ a _ | .vneg _ _ a _ | .vredSum _ _ a _ | .vredMax _ _ a _ | .vredMin _ _ a _ | .vredSsq _ _ a _
  | .vexp2 _ _ a _ | .vlog2 _ _ a _ | .vrcp _ _ a _ | .vrsq _ _ a _ | .vcvt _ _ a _ _ | .vscale _ _ a _ _ =>
    ([], [a])
  | .vfma _ d a b _ | .vfms _ d a b _ | .vfnma _ d a b _ => ([], [d, a, b])
  | .vext _ _ a b | .tmov _ _ a b => ([b], [a])
  | .vldlGat _ _ a b _ | .gaddr _ a b | .bqpush _ a b | .bqpushNw _ a b => ([a], [b])
  | .vstlUnit _ d a _ => ([a], [d])
  | .vstlStr _ d a b _ => ([a, b], [d])
  | .vstlSca _ d a b _ => ([a], [d, b])
  | .tmmaSp _ _ b | .acvtV _ _ _ b | .ldpw _ _ b _ => ([b], [])
  | _ => ([], [])

/-- The scalar register that the d field of a group names as its result (R18). -/
def destReg : Instr → Option SReg
  | .add d _ _ | .sub d _ _ | .and d _ _ | .or d _ _ | .xor d _ _ | .andn d _ _ | .sll d _ _ | .srl d _ _ | .sra d _ _
  | .ror d _ _ | .slt d _ _ | .sltn d _ _ | .mul d _ _ | .mulh d _ _ | .mulhn d _ _ | .seq d _ _ | .div d _ _
  | .divn d _ _ | .rem d _ _ | .remn d _ _ | .min d _ _ | .max d _ _ | .minn d _ _ | .maxn d _ _ | .addi d _ _
  | .andi d _ _ | .ori d _ _ | .xori d _ _ | .slli d _ _ | .srli d _ _ | .srai d _ _ | .slti d _ _ | .li d _ | .lih d _
  | .clz d _ | .ctz d _ | .popc d _ | .sext d _ _ | .ldl d _ _ _ | .ldln d _ _ _ | .fadd _ d _ _ | .fsub _ d _ _
  | .fmul _ d _ _ | .fdiv _ d _ _ | .fmin _ d _ _ | .fmax _ d _ _ | .fsgnj _ d _ _ | .fsqrt _ d _ | .fma _ d _ _
  | .fms _ d _ _ | .fnma _ d _ _ | .feq _ d _ _ | .flt _ d _ _ | .fle _ d _ _ | .fun _ d _ _ | .fclass _ d _
  | .fabs _ d _ | .fneg _ d _ | .fcvtFI _ _ d _ | .fcvtIF _ _ d _ | .fcvtFF _ d _ | .fcvtT _ _ d _ _ | .vext _ d _ _
  | .vredSum _ d _ _ | .vredMax _ d _ _ | .vredMin _ d _ _ | .vredSsq _ d _ _ | .pcnt d _ | .pffs d _ | .ldg d _ _ _ _
  | .ldgn d _ _ _ _ | .amoadd _ d _ _ _ | .amoand _ d _ _ _ | .amoor _ d _ _ _ | .amoxor _ d _ _ _ | .amomin _ d _ _ _
  | .amomax _ d _ _ _ | .amominn _ d _ _ _ | .amomaxn _ d _ _ _ | .amoswp _ d _ _ _ | .amocas _ d _ _ _ | .cpin d _
  | .cunpin d _ | .gaddr d _ _ | .mkga d _ _ | .ldpw d _ _ _ | .oinit d _ _ | .odestroy d _ | .oquery d _ _ | .okill d _ | .cntadd d _ _
  | .cntwait d _ _ | .cntwaitNw d _ _ | .bararr d _ | .barwait d _ _ | .baraw d _ | .baradj d _ _ | .tlkacq d _
  | .tlkacqNw d _ | .tlkrel d _ | .bqpush d _ _ | .bqpushNw d _ _ | .bqpop d _ _ | .bqpopNw d _ _ | .cvwait d _ | .cvsig d _
  | .cvbc d _ | .vcpub d _ | .vcfin d _ | .vcrsv d _ | .vcstop d _ | .vcsub d _ _ | .vcack d _ _ | .vcchk d
  | .vcunsub d _ _ | .cpy d _ _ | .cpyt d _ _ | .cpyl d _ _ | .twany d _ | .twall d _ | .tffr d _ | .bscall d _ _
  | .bspart d _ _ | .bsstat d _ | .bsabort d _ | .xfer d _ _ | .xferCh d _ _ | .coll d _ _ | .mcst d _ _ | .regwin d _
  | .revwin d _ _ | .crr d _ | .crx d _ _ | .hndset d _ _ | .ctxsave d _ _ | .ctxload d _ _ | .tlbinv d _ _ => some d
  | .jal _ | .jalr _ => some 1
  | _ => none

/-- The scalar registers that a group writes: of a group that answers with two words S[d+1] too (R18, R265, R300, R167). -/
def destRegs (i : Instr) : List SReg :=
  match destReg i with
  | none => []
  | some d => match i with
    | .gaddr _ _ _ | .bsstat _ _ | .bsabort _ _ | .oquery _ _ _ | .cntadd _ _ _ | .cntwait _ _ _ | .cntwaitNw _ _ _
    | .bararr _ _ | .barwait _ _ _ | .baraw _ _ | .baradj _ _ _ | .tlkacq _ _ | .tlkacqNw _ _ | .tlkrel _ _
    | .bqpush _ _ _ | .bqpushNw _ _ _ | .bqpop _ _ _ | .bqpopNw _ _ _ | .cvwait _ _ | .cvsig _ _ | .cvbc _ _
    | .vcpub _ _ | .vcfin _ _ | .vcrsv _ _ | .vcstop _ _ | .vcsub _ _ _ | .vcack _ _ _ | .vcchk _ | .vcunsub _ _ _
    | .odestroy _ _ | .oinit _ _ _ | .okill _ _ | .coll _ _ _ | .regwin _ _ => [d, d + 1]
    | _ => [d]

/-- The vector register that a group writes. -/
def destV : Instr → List VReg
  | .vadd _ _ d _ _ _ | .vsub _ _ d _ _ _ => [d]
  | .vmul _ d _ _ _ | .vmulh _ d _ _ _ | .vmin _ d _ _ _ | .vmax _ d _ _ _ | .vand _ d _ _ _ | .vor _ d _ _ _
  | .vxor _ d _ _ _ | .vandn _ d _ _ _ | .vshl _ d _ _ _ | .vshr _ d _ _ _ | .vsar _ d _ _ _ | .vror _ d _ _ _
  | .vfma _ d _ _ _ | .vfms _ d _ _ _ | .vfnma _ d _ _ _ | .vsel _ d _ _ _ | .vperm _ d _ _ _ | .vldlStr _ d _ _ _
  | .vldlGat _ d _ _ _ | .vcvt _ d _ _ _ | .vscale _ d _ _ _ => [d]
  | .vabs _ d _ _ | .vneg _ d _ _ | .vbcst _ d _ _ | .vexp2 _ d _ _ | .vlog2 _ d _ _ | .vrcp _ d _ _ | .vrsq _ d _ _
  | .vli _ d _ _ | .vldlUnit _ d _ _ | .vldlBc _ d _ _ | .acvtV _ d _ _ => [d]
  | .bqpop _ _ d | .bqpopNw _ _ d | .oquery _ _ d => [d]
  | _ => []

/-- The tiles and accumulators that a matrix group writes. -/
def destBank : Instr → List TReg × List AReg
  | .tld _ d _ _ | .tldT _ d _ _ | .acvt _ d _ _ | .tmov _ d _ _ | .ttrn _ d _ => ([d], [])
  | .tmma d _ _ | .tmmaBt d _ _ | .tmmaSp d _ _ | .azero d | .ald d _ | .aadd d _ => ([], [d])
  | _ => ([], [])

/-- A register of a list is poisoned (R327); s0 reads as zero. -/
def Frame.poisonedIn (f : Frame) (l : List SReg × List VReg) : Bool :=
  (l.1.any fun r => r != 0 && f.poisonS.getLsbD r.toNat) || l.2.any fun r => f.poisonV.getLsbD r.toNat

/-- A predicate of a list is poisoned (R327); p0 reads as all ones. -/
def Frame.poisonedPred (f : Frame) (l : List PReg) : Bool := l.any fun r => r != 0 && f.poisonP.getLsbD r.toNat

/-- A tile or an accumulator of the lists is poisoned (R327). -/
def Core.poisonedBank (c : Core) (l : List TReg × List AReg) : Bool :=
  (l.1.any fun r => c.poisonT.getLsbD r.toNat) || l.2.any fun r => c.poisonA.getLsbD r.toNat

/-- The predicate registers that a group reads: those that it combines, tests or selects by, and the one that governs it
(R30, R99, R327). -/
def sourcePreds : Instr → List PReg
  | .pand _ a b | .por _ a b | .pxor _ a b => [a, b]
  | .pnot _ a | .pcnt _ a | .pffs _ a => [a]
  | .vadd _ _ _ _ _ pr | .vsub _ _ _ _ _ pr => [pr]
  | .vmul _ _ _ _ pr | .vmulh _ _ _ _ pr | .vmin _ _ _ _ pr | .vmax _ _ _ _ pr | .vand _ _ _ _ pr
  | .vor _ _ _ _ pr | .vxor _ _ _ _ pr | .vandn _ _ _ _ pr | .vshl _ _ _ _ pr | .vshr _ _ _ _ pr
  | .vsar _ _ _ _ pr | .vror _ _ _ _ pr | .vfma _ _ _ _ pr | .vfms _ _ _ _ pr | .vfnma _ _ _ _ pr
  | .vcmpEq _ _ _ _ pr | .vcmpLt _ _ _ _ pr | .vcmpLe _ _ _ _ pr | .vcmpUn _ _ _ _ pr | .vsel _ _ _ _ pr
  | .vperm _ _ _ _ pr | .vldlStr _ _ _ _ pr | .vldlGat _ _ _ _ pr | .vstlStr _ _ _ _ pr
  | .vstlSca _ _ _ _ pr => [pr]
  | .vabs _ _ _ pr | .vneg _ _ _ pr | .vredSum _ _ _ pr | .vredMax _ _ _ pr | .vredMin _ _ _ pr
  | .vredSsq _ _ _ pr | .vexp2 _ _ _ pr | .vlog2 _ _ _ pr | .vrcp _ _ _ pr | .vrsq _ _ _ pr | .vbcst _ _ _ pr
  | .vldlUnit _ _ _ pr | .vldlBc _ _ _ pr | .vstlUnit _ _ _ pr => [pr]
  | .vcvt _ _ _ pr _ | .vscale _ _ _ pr _ => [pr]
  | .vli _ _ pr _ => [pr]
  | _ => []

/-- The tiles and accumulators that a matrix group reads (R114 to R123, R327). -/
def sourceBank : Instr → List TReg × List AReg
  | .tst _ d _ _ => ([d], [])
  | .tmma d a b | .tmmaBt d a b => ([a, b], [d])
  | .tmmaSp d a _ => ([a], [d])
  | .ast d _ => ([], [d])
  | .aadd d a => ([], [d, a])
  | .acvt _ _ a _ | .acvtV _ _ a _ => ([], [a])
  | .ttrn _ _ a => ([a], [])
  | _ => ([], [])

/-- A group that reads its core's scratchpad otherwise than by the loads of R241: the samples of a multiply, descriptors, records and
payloads. It waits for every store to the scratchpad that its frame has left (R18). -/
def samplesPad : Instr → Bool
  | .tmma _ _ _ | .tmmaBt _ _ _ | .tmmaSp _ _ _ | .oinit _ _ _ | .bscall _ _ _ | .xfer _ _ _ | .xferCh _ _ _
  | .mcst _ _ _ | .coll _ _ _ | .regwin _ _ | .gaddr _ _ _ | .cpy _ _ _ | .cpyt _ _ _ | .cpyl _ _ _ => true
  | _ => false

/-- A group waits for a load that its frame has left to perform, whose register it reads or writes, and one that samples the
scratchpad for the stores to it (R18, R238, R240). -/
def Late.holds (x : Late) (i : Instr) : Bool :=
  match x.what with
  | .load _ _ d _ _ _ _ | .pad (.scalar d _ _) _ => d != 0 && ((sourceRegs i).1 ++ destRegs i).contains d
  | .pad (.vector d _ _) _ => ((sourceRegs i).2 ++ destV i).contains d
  | .pad (.tile d _ _) _ => ((sourceBank i).1 ++ (destBank i).1).contains d
  | .pad (.acc d) _ => ((sourceBank i).2 ++ (destBank i).2).contains d
  | .store _ _ => samplesPad i

/-- A matrix group: page 3, majors 0x00 to 0x03 (R11). -/
def isMatrixGroup : Instr → Bool
  | .tld _ _ _ _ | .tldT _ _ _ _ | .tst _ _ _ _ | .tmma _ _ _ | .tmmaBt _ _ _ | .tmmaSp _ _ _ | .azero _ | .ald _ _ | .ast _ _ | .aadd _ _ | .acvt _ _ _ _ | .acvtV _ _ _ _ | .tmov _ _ _ _ | .ttrn _ _ _ => true
  | _ => false

/-- A group marked (S) (R43). -/
def isPrivileged : Instr → Bool
  | .okill _ _ | .regwin _ _ | .revwin _ _ _ | .eret | .hndset _ _ _ | .ctxsave _ _ _ | .ctxload _ _ _
  | .tlbinv _ _ _ => true
  | _ => false

/-- The group may be captured (R125). -/
def capturable : Instr → Bool
  | .vadd _ _ _ _ _ _ | .vsub _ _ _ _ _ _ | .vmul _ _ _ _ _ | .vmulh _ _ _ _ _
  | .vmin _ _ _ _ _ | .vmax _ _ _ _ _ | .vabs _ _ _ _ | .vneg _ _ _ _
  | .vand _ _ _ _ _ | .vor _ _ _ _ _ | .vxor _ _ _ _ _ | .vandn _ _ _ _ _
  | .vshl _ _ _ _ _ | .vshr _ _ _ _ _ | .vsar _ _ _ _ _ | .vror _ _ _ _ _
  | .vfma _ _ _ _ _ | .vfms _ _ _ _ _ | .vfnma _ _ _ _ _ | .vcmpEq _ _ _ _ _
  | .vcmpLt _ _ _ _ _ | .vcmpLe _ _ _ _ _ | .vcmpUn _ _ _ _ _ | .vsel _ _ _ _ _
  | .vperm _ _ _ _ _ | .vbcst _ _ _ _ | .vexp2 _ _ _ _ | .vlog2 _ _ _ _
  | .vrcp _ _ _ _ | .vrsq _ _ _ _ | .vcvt _ _ _ _ _ | .vscale _ _ _ _ _
  | .vli _ _ _ _ | .vldlUnit _ _ _ _ | .vldlStr _ _ _ _ _ | .vldlGat _ _ _ _ _
  | .vldlBc _ _ _ _ | .vstlUnit _ _ _ _ | .vstlStr _ _ _ _ _ | .vstlSca _ _ _ _ _
  | .pand _ _ _ | .por _ _ _ | .pxor _ _ _ | .pnot _ _
  | .pset _ _ | .tld _ _ _ _ | .tldT _ _ _ _ | .tst _ _ _ _
  | .tmma _ _ _ | .tmmaBt _ _ _ | .tmmaSp _ _ _ | .azero _
  | .ald _ _ | .ast _ _ | .aadd _ _ | .acvt _ _ _ _
  | .acvtV _ _ _ _ | .tmov _ _ _ _ | .ttrn _ _ _ => true
  | _ => false

/-- The scalar registers that the a and b fields of a capturable group name, read at capture (R20). -/
def scalarOperands : Instr → SReg × SReg
  | .vbcst _ _ a _ => (a, 0)
  | .vldlUnit _ _ a _ => (a, 0)
  | .vldlStr _ _ a b _ => (a, b)
  | .vldlGat _ _ a _ _ => (a, 0)
  | .vldlBc _ _ a _ => (a, 0)
  | .vstlUnit _ _ a _ => (a, 0)
  | .vstlStr _ _ a b _ => (a, b)
  | .vstlSca _ _ a _ _ => (a, 0)
  | .pset _ a => (a, 0)
  | .tld _ _ a b => (a, b)
  | .tldT _ _ a b => (a, b)
  | .tst _ _ a b => (a, b)
  | .tmmaSp _ _ b => (0, b)
  | .ald _ a => (a, 0)
  | .ast _ a => (a, 0)
  | .acvtV _ _ _ b => (0, b)
  | .tmov _ _ _ b => (0, b)
  | _ => (0, 0)

/-- The local address operand of a group (R126): `some false` is the a field's register, `some true` the b field's. -/
def localOperand : Instr → Option Bool
  | .vldlUnit _ _ _ _ | .vldlStr _ _ _ _ _ | .vldlGat _ _ _ _ _ | .vldlBc _ _ _ _
  | .vstlUnit _ _ _ _ | .vstlStr _ _ _ _ _ | .vstlSca _ _ _ _ _ | .tld _ _ _ _
  | .tldT _ _ _ _ | .tst _ _ _ _ | .ald _ _ | .ast _ _ => some false
  | .tmmaSp _ _ _ => some true
  | _ => none

/-- The fields 0 to 2 that name a register of a staggerable file (R21, R126). -/
def staggerFields : Instr → List Nat
  | .vadd _ _ _ _ _ _ | .vsub _ _ _ _ _ _ | .vmul _ _ _ _ _ | .vmulh _ _ _ _ _
  | .vmin _ _ _ _ _ | .vmax _ _ _ _ _ | .vand _ _ _ _ _ | .vor _ _ _ _ _
  | .vxor _ _ _ _ _ | .vandn _ _ _ _ _ | .vshl _ _ _ _ _ | .vshr _ _ _ _ _
  | .vsar _ _ _ _ _ | .vror _ _ _ _ _ | .vfma _ _ _ _ _ | .vfms _ _ _ _ _
  | .vfnma _ _ _ _ _ | .vcmpEq _ _ _ _ _ | .vcmpLt _ _ _ _ _ | .vcmpLe _ _ _ _ _
  | .vcmpUn _ _ _ _ _ | .vsel _ _ _ _ _ | .vperm _ _ _ _ _ | .pand _ _ _
  | .por _ _ _ | .pxor _ _ _ | .tmma _ _ _ | .tmmaBt _ _ _ => [0, 1, 2]
  | .vabs _ _ _ _ | .vneg _ _ _ _ | .vexp2 _ _ _ _ | .vlog2 _ _ _ _
  | .vrcp _ _ _ _ | .vrsq _ _ _ _ | .vcvt _ _ _ _ _ | .vscale _ _ _ _ _
  | .pnot _ _ | .tmmaSp _ _ _ | .aadd _ _ | .acvt _ _ _ _
  | .acvtV _ _ _ _ | .tmov _ _ _ _ | .ttrn _ _ _ => [0, 1]
  | .vbcst _ _ _ _ | .vli _ _ _ _ | .vldlUnit _ _ _ _ | .vldlStr _ _ _ _ _
  | .vldlBc _ _ _ _ | .vstlUnit _ _ _ _ | .vstlStr _ _ _ _ _ | .pset _ _
  | .tld _ _ _ _ | .tldT _ _ _ _ | .tst _ _ _ _ | .azero _
  | .ald _ _ | .ast _ _ => [0]
  | .vldlGat _ _ _ _ _ | .vstlSca _ _ _ _ _ => [0, 2]
  | _ => []

/-- A register field in an iteration: (b + i * k) mod N, N being the size of its file (R21). -/
def stag {w : Nat} (r : BitVec w) (i : Nat) (k : Option Word) : BitVec w :=
  r + BitVec.ofNat w (i * ((k.getD 0).toNat % 2 ^ w))

/-- The captured group of an iteration: its register fields staggered (R21). -/
def staggered (x : Instr) (i : Nat) (k : Vector (Option Word) 6) : Instr :=
  match x with
  | .vadd sat f d a b pr => .vadd sat f (stag d i k[0]) (stag a i k[1]) (stag b i k[2]) pr
  | .vsub sat f d a b pr => .vsub sat f (stag d i k[0]) (stag a i k[1]) (stag b i k[2]) pr
  | .vmul f d a b pr => .vmul f (stag d i k[0]) (stag a i k[1]) (stag b i k[2]) pr
  | .vmulh f d a b pr => .vmulh f (stag d i k[0]) (stag a i k[1]) (stag b i k[2]) pr
  | .vmin f d a b pr => .vmin f (stag d i k[0]) (stag a i k[1]) (stag b i k[2]) pr
  | .vmax f d a b pr => .vmax f (stag d i k[0]) (stag a i k[1]) (stag b i k[2]) pr
  | .vabs f d a pr => .vabs f (stag d i k[0]) (stag a i k[1]) pr
  | .vneg f d a pr => .vneg f (stag d i k[0]) (stag a i k[1]) pr
  | .vand f d a b pr => .vand f (stag d i k[0]) (stag a i k[1]) (stag b i k[2]) pr
  | .vor f d a b pr => .vor f (stag d i k[0]) (stag a i k[1]) (stag b i k[2]) pr
  | .vxor f d a b pr => .vxor f (stag d i k[0]) (stag a i k[1]) (stag b i k[2]) pr
  | .vandn f d a b pr => .vandn f (stag d i k[0]) (stag a i k[1]) (stag b i k[2]) pr
  | .vshl f d a b pr => .vshl f (stag d i k[0]) (stag a i k[1]) (stag b i k[2]) pr
  | .vshr f d a b pr => .vshr f (stag d i k[0]) (stag a i k[1]) (stag b i k[2]) pr
  | .vsar f d a b pr => .vsar f (stag d i k[0]) (stag a i k[1]) (stag b i k[2]) pr
  | .vror f d a b pr => .vror f (stag d i k[0]) (stag a i k[1]) (stag b i k[2]) pr
  | .vfma f d a b pr => .vfma f (stag d i k[0]) (stag a i k[1]) (stag b i k[2]) pr
  | .vfms f d a b pr => .vfms f (stag d i k[0]) (stag a i k[1]) (stag b i k[2]) pr
  | .vfnma f d a b pr => .vfnma f (stag d i k[0]) (stag a i k[1]) (stag b i k[2]) pr
  | .vcmpEq f d a b pr => .vcmpEq f (stag d i k[0]) (stag a i k[1]) (stag b i k[2]) pr
  | .vcmpLt f d a b pr => .vcmpLt f (stag d i k[0]) (stag a i k[1]) (stag b i k[2]) pr
  | .vcmpLe f d a b pr => .vcmpLe f (stag d i k[0]) (stag a i k[1]) (stag b i k[2]) pr
  | .vcmpUn f d a b pr => .vcmpUn f (stag d i k[0]) (stag a i k[1]) (stag b i k[2]) pr
  | .vsel f d a b pr => .vsel f (stag d i k[0]) (stag a i k[1]) (stag b i k[2]) pr
  | .vperm f d a b pr => .vperm f (stag d i k[0]) (stag a i k[1]) (stag b i k[2]) pr
  | .vbcst f d a pr => .vbcst f (stag d i k[0]) a pr
  | .vexp2 f d a pr => .vexp2 f (stag d i k[0]) (stag a i k[1]) pr
  | .vlog2 f d a pr => .vlog2 f (stag d i k[0]) (stag a i k[1]) pr
  | .vrcp f d a pr => .vrcp f (stag d i k[0]) (stag a i k[1]) pr
  | .vrsq f d a pr => .vrsq f (stag d i k[0]) (stag a i k[1]) pr
  | .vcvt f d a pr tgt => .vcvt f (stag d i k[0]) (stag a i k[1]) pr tgt
  | .vscale f d a pr imm => .vscale f (stag d i k[0]) (stag a i k[1]) pr imm
  | .vli f d pr imm => .vli f (stag d i k[0]) pr imm
  | .vldlUnit f d a pr => .vldlUnit f (stag d i k[0]) a pr
  | .vldlStr f d a b pr => .vldlStr f (stag d i k[0]) a b pr
  | .vldlGat f d a b pr => .vldlGat f (stag d i k[0]) a (stag b i k[2]) pr
  | .vldlBc f d a pr => .vldlBc f (stag d i k[0]) a pr
  | .vstlUnit f d a pr => .vstlUnit f (stag d i k[0]) a pr
  | .vstlStr f d a b pr => .vstlStr f (stag d i k[0]) a b pr
  | .vstlSca f d a b pr => .vstlSca f (stag d i k[0]) a (stag b i k[2]) pr
  | .pand d a b => .pand (stag d i k[0]) (stag a i k[1]) (stag b i k[2])
  | .por d a b => .por (stag d i k[0]) (stag a i k[1]) (stag b i k[2])
  | .pxor d a b => .pxor (stag d i k[0]) (stag a i k[1]) (stag b i k[2])
  | .pnot d a => .pnot (stag d i k[0]) (stag a i k[1])
  | .pset d a => .pset (stag d i k[0]) a
  | .tld f d a b => .tld f (stag d i k[0]) a b
  | .tldT f d a b => .tldT f (stag d i k[0]) a b
  | .tst f d a b => .tst f (stag d i k[0]) a b
  | .tmma d a b => .tmma (stag d i k[0]) (stag a i k[1]) (stag b i k[2])
  | .tmmaBt d a b => .tmmaBt (stag d i k[0]) (stag a i k[1]) (stag b i k[2])
  | .tmmaSp d a b => .tmmaSp (stag d i k[0]) (stag a i k[1]) b
  | .azero d => .azero (stag d i k[0])
  | .ald d a => .ald (stag d i k[0]) a
  | .ast d a => .ast (stag d i k[0]) a
  | .aadd d a => .aadd (stag d i k[0]) (stag a i k[1])
  | .acvt f d a mode => .acvt f (stag d i k[0]) (stag a i k[1]) mode
  | .acvtV f d a b => .acvtV f (stag d i k[0]) (stag a i k[1]) b
  | .tmov f d a b => .tmov f (stag d i k[0]) (stag a i k[1]) b
  | .ttrn f d a => .ttrn f (stag d i k[0]) (stag a i k[1])
  | y => y

/-- The meaning of a captured group. -/
def runBody (x : Instr) (s : State) : Result :=
  match x with
  | .vadd sat f d a b pr => execVadd sat f d a b pr s
  | .vsub sat f d a b pr => execVsub sat f d a b pr s
  | .vmul f d a b pr => execVmul f d a b pr s
  | .vmulh f d a b pr => execVmulh f d a b pr s
  | .vmin f d a b pr => execVmin f d a b pr s
  | .vmax f d a b pr => execVmax f d a b pr s
  | .vabs f d a pr => execVabs f d a pr s
  | .vneg f d a pr => execVneg f d a pr s
  | .vand f d a b pr => execVand f d a b pr s
  | .vor f d a b pr => execVor f d a b pr s
  | .vxor f d a b pr => execVxor f d a b pr s
  | .vandn f d a b pr => execVandn f d a b pr s
  | .vshl f d a b pr => execVshl f d a b pr s
  | .vshr f d a b pr => execVshr f d a b pr s
  | .vsar f d a b pr => execVsar f d a b pr s
  | .vror f d a b pr => execVror f d a b pr s
  | .vfma f d a b pr => execVfma f d a b pr s
  | .vfms f d a b pr => execVfms f d a b pr s
  | .vfnma f d a b pr => execVfnma f d a b pr s
  | .vcmpEq f d a b pr => execVcmpEq f d a b pr s
  | .vcmpLt f d a b pr => execVcmpLt f d a b pr s
  | .vcmpLe f d a b pr => execVcmpLe f d a b pr s
  | .vcmpUn f d a b pr => execVcmpUn f d a b pr s
  | .vsel f d a b pr => execVsel f d a b pr s
  | .vperm f d a b pr => execVperm f d a b pr s
  | .vbcst f d a pr => execVbcst f d a pr s
  | .vexp2 f d a pr => execVexp2 f d a pr s
  | .vlog2 f d a pr => execVlog2 f d a pr s
  | .vrcp f d a pr => execVrcp f d a pr s
  | .vrsq f d a pr => execVrsq f d a pr s
  | .vcvt f d a pr tgt => execVcvt f d a pr tgt s
  | .vscale f d a pr imm => execVscale f d a pr imm s
  | .vli f d pr imm => execVli f d pr imm s
  | .vldlUnit f d a pr => execVldlUnit f d a pr s
  | .vldlStr f d a b pr => execVldlStr f d a b pr s
  | .vldlGat f d a b pr => execVldlGat f d a b pr s
  | .vldlBc f d a pr => execVldlBc f d a pr s
  | .vstlUnit f d a pr => execVstlUnit f d a pr s
  | .vstlStr f d a b pr => execVstlStr f d a b pr s
  | .vstlSca f d a b pr => execVstlSca f d a b pr s
  | .pand d a b => execPand d a b s
  | .por d a b => execPor d a b s
  | .pxor d a b => execPxor d a b s
  | .pnot d a => execPnot d a s
  | .pset d a => execPset d a s
  | .tld f d a b => execTld f d a b s
  | .tldT f d a b => execTldT f d a b s
  | .tst f d a b => execTst f d a b s
  | .tmma d a b => execTmma d a b s
  | .tmmaBt d a b => execTmmaBt d a b s
  | .tmmaSp d a b => execTmmaSp d a b s
  | .azero d => execAzero d s
  | .ald d a => execAld d a s
  | .ast d a => execAst d a s
  | .aadd d a => execAadd d a s
  | .acvt f d a mode => execAcvt f d a mode s
  | .acvtV f d a b => execAcvtV f d a b s
  | .tmov f d a b => execTmov f d a b s
  | .ttrn f d a => execTtrn f d a s
  | _ => .next s

/-! ### Capture (R124 to R126) -/

/-- No stagger. -/
def noStagger : Vector (Option Word) 6 := Vector.replicate 6 none

/-- The address that follows a group, once it has been passed. -/
def State.passGroup (s : State) : State := s.putFr { s.fr with pc := s.nextPc }

/-- RPT: a capture begins; while a repetition is active it is ILLEGAL (R124, R125). -/
def execRpt (n : BitVec 4) (imm : Word) (s : State) : Result :=
  .next (s.needVector fun s =>
    if s.fr.rep.active then s.illegal
    else
      let t := s.retire
      let c : Capture :=
        { need := n.toNat + 1, count := imm.toNat, body := [], stagger := noStagger, fields := [], fieldPcs := [] }
      t.putFr { t.fr with capture := some c })

/-- RPTS in a capture: the stagger of one field of the next captured group, the later of two for one field counting;
outside a capture it is ILLEGAL (R125, R126). -/
def execRpts (field : BitVec 3) (imm : Word) (s : State) : Result :=
  .next (s.needVector fun s =>
    match s.fr.capture with
    | none => s.illegal
    | some c =>
      if h : field.toNat < 6 then
        let t := s.retire
        let c1 : Capture := { c with
          stagger := c.stagger.set field.toNat (some imm) h
          fields := c.fields ++ [field.toNat]
          fieldPcs := c.fieldPcs ++ [(field.toNat, (s.fr.pc, (s.issue.len, s.issue.base)))] }
        t.putFr { t.fr with capture := some c1 }
      else s.illegal)

/-- RPTW retires once the sequencer has drained or is suspended by a trap (R127). -/
def execRptw (s : State) : Result :=
  .next (s.needVector fun s => if s.fr.rep.active && !s.fr.rep.trapv then s else s.retire)

/-- RPTX retires under the same hold and frees the sequencer's entries, leaving ITER, SLOT, TRAPV and CONT (R127). -/
def execRptx (s : State) : Result :=
  .next (s.needVector fun s =>
    if s.fr.rep.active && !s.fr.rep.trapv then s
    else
      let t := s.retire
      t.putFr { t.fr with rep := { t.fr.rep with active := false, body := [], count := 0, nextIter := 0, nextSlot := 0 } })

/-- The field may be staggered in the group (R126). -/
def fieldAllowed (x : Instr) (field : Nat) : Bool :=
  if field < 3 then (staggerFields x).contains field
  else if field = 3 then (localOperand x).isSome
  else match x with
    | .tmma _ _ _ | .tmmaBt _ _ _ | .tmmaSp _ _ _ => true
    | _ => false

/-- The capture ends with its n-th group: the sequencer holds the body; with a count of 0 it drains at once (R20,
R24). -/
def startRepetition (f : Frame) (c : Capture) : Frame :=
  let go := 0 < c.count
  { f with
    capture := none
    rep := { f.rep with
      active := go
      trapv := false
      count := if go then c.count else 0
      body := if go then c.body else []
      endPc := f.pc
      nextIter := 0
      nextSlot := 0 } }

/-- A group passes the checks of R125 in a capture: it is capturable, and the staggers that stand for it name fields that it
has. -/
def Capture.accepts (c : Capture) (x : Instr) : Bool := capturable x && c.fields.all (fieldAllowed x)

/-- A group reached during a capture: RPTS, a captured group, or an offending one, which discards the capture (R125); one
that fails to decode reports what R36 picks.
In class 1 a matrix group is ILLEGAL (R135); a matrix group is captured once the frame owns the bank (R11, R133). -/
def State.captureGroup (s : State) (x : Instr) (c : Capture) : Result :=
  match x with
  | .rpts field imm => execRpts field imm s
  | _ =>
    if let .udf hw pos := x then execUdf hw pos s
    else if let .nonInstructionPattern hw pos := x then execNonInstructionPattern hw pos s
    else if !capturable x then .next s.illegal
    else
      match c.fieldPcs.find? fun e => !fieldAllowed x e.1 with
      | some (_, pc, len, base) =>
        .next (s.takeTrapIn s.cur 1 0 pc
          (.ofNat 64 (base.toNat + (len - 1) * 65536)) len 0)
      | none =>
        let take (s : State) : State :=
          let f := s.fr
          let ops := scalarOperands x
          let g : Captured :=
            { instr := x, pc := f.pc, len := s.issue.len, base := s.issue.base, sa := f.getS ops.1, sb := f.getS ops.2,
              scla := f.scla, sclb := f.sclb, stagger := c.stagger }
          let c1 := { c with body := c.body ++ [g], stagger := noStagger, fields := [], fieldPcs := [] }
          let f1 := { f with pc := s.nextPc }
          s.putFr (if c1.body.length < c.need then { f1 with capture := some c1 } else startRepetition f1 c1)
        if isMatrixGroup x then
          (if s.fr.cls.toNat < 2 then .next s.illegal else .next (s.needBank take))
        else .next (take s)

/-! ### Scratchpad accesses of a group (R109 to R111, R115, R224) -/

/-- The accesses of a group to its core's scratchpad, at local addresses, each of a size and an alignment: what a load fills, or
the bytes that a store writes with the masks of their bits. -/
inductive PadPlan where
  | load (dst : PadDest) (as : List Nat) (n al : Nat)
  | store (xs : List (Nat × List (Byte × Byte))) (n al : Nat)

/-- The addresses that a plan's accesses name, with their size. -/
def PadPlan.accesses : PadPlan → List (Nat × Nat)
  | .load _ as n _ => as.map (·, n)
  | .store xs n _ => xs.map (·.1, n)

/-- Bytes that are written whole. -/
def wholeBytes (bs : List Byte) : List (Byte × Byte) := bs.map (·, 0xFF)

/-- A vector load's plan: a broadcast load reads its element once (R109). -/
def State.vecLoadPlan (s : State) (f : Fmt) (d : VReg) (pr : PReg) (addr : Nat → Word) (bc : Bool := false) : PadPlan :=
  let as := s.activeAddrs f pr addr
  let es := (as.zip (List.range as.length)).map fun e => (e.1.1, if bc then (0, 0) else (e.2, e.1.1 % 4))
  .load (.vector d f es) ((if bc then as.take 1 else as).map (·.2)) (memBytes f) (memAlign f)

/-- A vector store's plan: a t6 element writes its own bits of its group (R109). -/
def State.vecStorePlan (s : State) (f : Fmt) (d : VReg) (pr : PReg) (addr : Nat → Word) : PadPlan :=
  let xs := (elems f (s.fr.getV d)).toArray
  .store ((s.activeAddrs f pr addr).map fun e =>
    let x := xs.getD e.1 0
    let p := 64 ^ (e.1 % 4)
    (e.2, if f = .t6 then (leBytes 3 (x % 64 * p)).zip (leBytes 3 (63 * p)) else wholeBytes (leBytes (memBytes f) x)))
    (memBytes f) (memAlign f)

/-- The plan of a group that loads from its core's scratchpad or stores to it at local addresses. -/
def State.padPlan (s : State) (i : Instr) : Option PadPlan :=
  let scalar (a : SReg) (imm : Word) (sz : BitVec 2) : Nat := (effAddr (s.rs a) imm sz).toNat
  match i with
  | .ldl d a imm sz => some (.load (.scalar d (sizeOf2 sz) true) [scalar a imm sz] (sizeOf2 sz) (sizeOf2 sz))
  | .ldln d a imm sz => some (.load (.scalar d (sizeOf2 sz) false) [scalar a imm sz] (sizeOf2 sz) (sizeOf2 sz))
  | .stl d a imm sz =>
    some (.store [(scalar a imm sz, wholeBytes (leBytes (sizeOf2 sz) (s.rs d).toNat))] (sizeOf2 sz) (sizeOf2 sz))
  | .vldlUnit f d a pr => some (s.vecLoadPlan f d pr (unitAddr f (s.srcA a)))
  | .vldlStr f d a b pr => some (s.vecLoadPlan f d pr fun e => s.srcA a + .ofNat 64 e * s.srcB b)
  | .vldlGat f d a b pr => some (s.vecLoadPlan f d pr (gatherAddr f (s.srcA a) (lanesOf (s.fr.getV b))))
  | .vldlBc f d a pr => some (s.vecLoadPlan f d pr (fun _ => s.srcA a) true)
  | .vstlUnit f d a pr => some (s.vecStorePlan f d pr (unitAddr f (s.srcA a)))
  | .vstlStr f d a b pr => some (s.vecStorePlan f d pr fun e => s.srcA a + .ofNat 64 e * s.srcB b)
  | .vstlSca f d a b pr => some (s.vecStorePlan f d pr (gatherAddr f (s.srcA a) (lanesOf (s.fr.getV b))))
  | .tld f d a b => some (.load (.tile d f false) (rowAddrs (s.srcA a) (s.srcB b) 32) (rowSize f) 16)
  | .tldT f d a b =>
    let (n, size) := columnRows f
    some (.load (.tile d f true) (rowAddrs (s.srcA a) (s.srcB b) n) size 16)
  | .tst f d a b =>
    some (.store (((rowAddrs (s.srcA a) (s.srcB b) 32).zip (tileRows (s.co.getT d))).map fun x =>
      (x.1, wholeBytes (x.2.take (rowSize f)))) (rowSize f) 16)
  | .ald d a => some (.load (.acc d) [(s.srcA a).toNat] 4096 32)
  | .ast d a => some (.store [((s.srcA a).toNat, wholeBytes (accBytes (s.co.getA d)))] 4096 32)
  | _ => none

/-- Nothing stops the accesses of a plan: no fault of R81, R110 or R115, and no poison in what a load reads (R327). -/
def State.planPasses (s : State) (p : PadPlan) : Bool :=
  match p with
  | .load _ as n al => !as.isEmpty && as.all fun a => (s.padFault a n al).isNone
  | .store xs n al => !xs.isEmpty && xs.all fun x => (s.fr.localFault x.1 n al).isNone

/-- A store to the scratchpad left to be performed, in its parts. -/
def State.leaveStore (s : State) (l : Nat) (bs : List (Byte × Byte)) : State :=
  (granules l bs.length).foldl (fun (t : State) g => t.pushLate (.store (localKey t.here (l + g.1)) ((bs.drop g.1).take g.2))) s

/-- The accesses of a plan left to be performed, each element, row or granule at an instant of its own (R111, R224, R240). The
group retires. -/
def State.leavePlan (s : State) (p : PadPlan) : State :=
  State.retire (match p with
    | .load dst as n _ =>
      s.pushLate (.pad dst (as.flatMap fun a => (granules a n).map fun g =>
        { ea := a, key := localKey s.here (a + g.1), n := g.2 }))
    | .store xs _ _ => xs.foldl (fun t x => t.leaveStore x.1 x.2) s)

/-! ### What holds a group at issue (R18, R22, R36, R241, R327) -/

/-- A load under R241. -/
def isLoad : Instr → Bool
  | .ldg _ _ _ _ _ | .ldgn _ _ _ _ _ | .ldl _ _ _ _ | .ldln _ _ _ _ | .ldpw _ _ _ _ | .vldlUnit _ _ _ _
  | .vldlStr _ _ _ _ _ | .vldlGat _ _ _ _ _ | .vldlBc _ _ _ _ | .tld _ _ _ _ | .tldT _ _ _ _ | .ald _ _
  | .amoadd _ _ _ _ _ | .amoand _ _ _ _ _ | .amoor _ _ _ _ _ | .amoxor _ _ _ _ _ | .amomin _ _ _ _ _
  | .amomax _ _ _ _ _ | .amominn _ _ _ _ _ | .amomaxn _ _ _ _ _ | .amoswp _ _ _ _ _ | .amocas _ _ _ _ _ => true
  | _ => false

/-- A store under R241. -/
def isStore : Instr → Bool
  | .stg _ _ _ _ _ | .stl _ _ _ _ | .vstlUnit _ _ _ _ | .vstlStr _ _ _ _ _ | .vstlSca _ _ _ _ _ | .tst _ _ _ _
  | .ast _ _ | .cclean _ _ | .cinv _ _ | .cdisc _ _ | .amoadd _ _ _ _ _ | .amoand _ _ _ _ _ | .amoor _ _ _ _ _
  | .amoxor _ _ _ _ _ | .amomin _ _ _ _ _ | .amomax _ _ _ _ _ | .amominn _ _ _ _ _ | .amomaxn _ _ _ _ _
  | .amoswp _ _ _ _ _ | .amocas _ _ _ _ _ => true
  | _ => false

/-- A group of page 2 or a repeat instruction: what class 0 refuses beside the matrix groups (R135). -/
def isVectorGroup : Instr → Bool
  | .vext _ _ _ _ | .vredSum _ _ _ _ | .vredMax _ _ _ _ | .vredMin _ _ _ _ | .vredSsq _ _ _ _ | .pcnt _ _ | .pffs _ _
  | .rpt _ _ | .rpts _ _ | .rptw | .rptx => true
  | i => capturable i && !isMatrixGroup i

/-- The group passes the class check of R135 and the privilege check of R36, which come before its execution. -/
def Frame.admits (f : Frame) (i : Instr) : Bool :=
  !(isMatrixGroup i && f.cls.toNat < 2) && !(isVectorGroup i && f.cls == 0) && !(isPrivileged i && !f.inS)

/-- A load or store of the frame that is left to be performed is of some of the bytes at a home (R238, R240). -/
def Late.touches (x : Late) (key n : Nat) : Bool :=
  let meets (k m : Nat) : Bool := k < key + n && key < k + m
  match x.what with
  | .load _ p _ m _ _ _ => match p with
    | .mem pa _ => meets pa m
    | .core k | .bank k => meets k m
    | .ctl off => meets (ctlKey off) m
    | .pad _ | .remote => false
  | .pad _ parts => parts.any fun p => meets p.key p.n
  | .store k bs => meets k bs.length

/-- A FENCE holds the group (R241). -/
def State.heldByFence (s : State) (n : Nat) (i : Instr) : Bool :=
  (isLoad i && (s.frameAt n).fenceLoads.any (s.markHolds n)) || (isStore i && (s.frameAt n).fenceStores.any (s.markHolds n))

/-- The group of the issuing frame waits at issue: for a FENCE, for a load whose register it names, or for an access that its frame
has left to perform to bytes of the scratchpad that it accesses (R18, R238, R240, R241). -/
def State.heldAtIssue (s : State) (i : Instr) : Bool :=
  let late := s.fr.late
  s.heldByFence s.cur i ||
  (!late.isEmpty && (late.any (·.holds i) || (match s.padPlan i with
    | some p => p.accesses.any fun a => late.any (·.touches (localKey s.here a.1) a.2)
    | none => false)))

/-- A matrix group of the bank's owner reads a poisoned tile or accumulator (R327). -/
def State.poisonedMatrix (s : State) (x : Instr) : Bool :=
  s.co.owner == some (.ofNat 2 s.cur) && s.co.poisonedBank (sourceBank x)

/-- A source register of a group is poisoned (R327). -/
def State.sourcePoisoned (s : State) (i : Instr) : Bool :=
  s.fr.poisonedIn (sourceRegs i) || s.fr.poisonedPred (sourcePreds i) || s.poisonedMatrix i

/-- A TMMA of a frame that was stopped by a switch-out executes again: until it is done no other group of the frame issues
(R318). -/
def State.replaying (s : State) (n : Nat) : Bool :=
  match (s.coreAt (n / 4)).tmma with
  | some t => t.replayed && t.frame == n
  | none => false

/-- A group that may be left to be performed: its class admits it, of a matrix group the bank is its frame's and free, and nothing
stops its accesses. What it leaves, and that it retires. -/
def State.leaveGroup (s : State) (i : Instr) : Option State :=
  if s.fr.admits i && (!isMatrixGroup i || (s.co.owner == some (.ofNat 2 s.cur) && s.co.tmma.isNone)) then
    match s.padPlan i with
    | some p => if s.planPasses p then some (s.leavePlan p) else none
    | none => none
  else none

/-! ### The issuing frame (R131) -/

/-- The repetition of a frame has a group that the sequencer may issue. -/
def Frame.repRunning (f : Frame) : Bool := f.rep.active && !f.rep.trapv

/-- Another READY frame of a core stands at a level that a test admits. -/
def State.readyPeer (s : State) (c n : Nat) (p : Nat → Bool) : Bool :=
  [0, 1, 2, 3].any fun k =>
    let g := s.frameAt (c * 4 + k)
    c * 4 + k ≠ n && g.status == .ready && g.stopping.isNone && p g.level.toNat

/-- A frame may stop issuing: not inside an iteration of its repetition (R131). -/
def Frame.betweenIterations (f : Frame) : Bool := !f.repRunning || f.rep.nextSlot = 0

/-- The READY frame of a core that R131 chooses: the highest level, then in ascending rotation after the frame chosen
last; before any frame has been chosen the rotation starts at frame 0 (log entry 85). -/
def State.bestReady (s : State) (c : Nat) : Option Nat :=
  let last := (s.coreAt c).lastFrame.toNat
  let ready := ([1, 2, 3, 4].map fun k => c * 4 + (last + k) % 4).filter fun n =>
    (s.frameAt n).status == .ready && (s.frameAt n).stopping.isNone
  ready.foldl (fun best n => match best with
    | none => some n
    | some b => if (s.frameAt b).level.toNat < (s.frameAt n).level.toNat then some n else some b) none

/-- The frame of a core that issues next: its issuing frame, unless a READY frame of a higher level takes its place
between iterations (R131). -/
def State.chosenFrame (s : State) (c : Nat) : Option Nat :=
  match (s.coreAt c).issuing with
  | some k =>
    let n := c * 4 + k.toNat
    let f := s.frameAt n
    if f.status == .issuing && f.stopping.isNone && !(f.betweenIterations && s.readyPeer c n (f.level.toNat < ·)) then
      some n
    else s.bestReady c
  | none => s.bestReady c

/-! ### Issue from the sequencer (R20, R21) -/

/-- A local address operand in an iteration: staggered modulo 2^19 where an RPTS names it, else as captured (R16, R21). -/
def stagLocal (w : Word) (i : Nat) (k : Option Word) : Word :=
  match k with
  | some k => (w + .ofNat 64 i * k) &&& 0x7FFFF
  | none => w

/-- The captured group that the sequencer of a frame issues next, its register fields staggered, with the latch of its operands. -/
def State.nextBody (s : State) (n : Nat) : Option (Instr × State) :=
  let r := (s.frameAt n).rep
  (r.body[r.nextSlot]?).map fun g =>
    let i := r.nextIter
    let k := g.stagger
    let onB := localOperand g.instr == some true
    let latch : Issue :=
      { len := g.len, base := g.base, inRep := true, pc := g.pc,
        sa := if onB then g.sa else stagLocal g.sa i k[3],
        sb := if onB then stagLocal g.sb i k[3] else g.sb,
        scla := stagLocal g.scla i (some (k[4].getD 0)), sclb := stagLocal g.sclb i (some (k[5].getD 0)) }
    (staggered g.instr i k, { s with cur := n, issue := latch })

/-- The sequencer's turn in a frame: its next captured group, which waits as any other for FENCEs and for what the frame has
left; in a late turn its accesses to the scratchpad are left to be performed (R18, R20, R240, R241). -/
def State.sequencerStep (s : State) (n : Nat) (late : Bool) : Result :=
  match s.nextBody n with
  | none =>
    let f := s.frameAt n
    .next (s.putFrame n { f with rep := { f.rep with active := false, body := [] } })
  | some (x, s1) =>
    if s1.heldAtIssue x then .next s
    else
      let s2 := if isMatrixGroup x then s1.claimBank else s1
      if s2.fr.poisonedIn ([], (sourceRegs x).2) || s2.fr.poisonedPred (sourcePreds x) || s2.poisonedMatrix x then
        .next (s2.trap 0x1F 0 2)
      else match (if late then s2.leaveGroup x else none) with
        | some t => .next t
        | none => runBody x s2

/-- RPT_ITERATION_ISSUE: the sequencer of a core's issuing frame issues, where R131 leaves that frame the issuing one (R22, R131). -/
def execRptIterationIssue (f : Nat) (s : State) : Result :=
  if (s.frameAt f).status = .issuing && (s.frameAt f).repRunning && s.chosenFrame (f / 4) == some f && !s.replaying f then
    (s.sampleFlags (f / 4) (some (f / 4))).sequencerStep f false
  else .next s

end Sys2Proof.Machine
end

