-- ==== Sys2Proof/Machine/Record.lean ====
section
/-! DEFINITION. The control registers of a frame by index (R13, R313, R314) and the record of a context in the context
table: written at switch-out, kept up to date while saved, read at restore (R320, R322). -/

namespace Sys2Proof.Machine

/-! ### Control registers as they read (R314) -/

/-- RPTST (R13). -/
def Repetition.status (r : Repetition) : Word :=
  .ofNat 64 (r.iter % 2 ^ 24 + r.slot % 16 * 2 ^ 24 + r.active.toNat * 2 ^ 30 + r.trapv.toNat * 2 ^ 31 +
    r.cont.toNat * 2 ^ 32)

/-- QFLAGS: the union of the cycle four before (R72). Cycles are not counted, so which of the unions that the core's last issues, this
one and four before it, may have seen it, is open (log entry 65). -/
def State.qflags (s : State) (core : Nat) : Word :=
  let l := s.flagUnion core :: (uptoMarks (·.2 == some core) (s.quadAt (quadOf core)).flagHist 5).map (·.1)
  l.getD ((Config.freeValue 16 s.freeCtr).toNat % l.length) 0

/-- NETCAP (R224). -/
def netcap : Word := 0x400000000 + 512 * 65536 + 32

/-- CTXID (R319). -/
def State.ctxid (s : State) (f : Frame) : Word :=
  .ofNat 64 (f.handle.toNat + s.devNum * 2 ^ 20 + f.part.toNat * 2 ^ 38 + f.level.toNat * 2 ^ 44)

/-- COREID of a frame's place (R319). -/
def State.coreid (s : State) (n : Nat) : Word :=
  let c := n / 4
  .ofNat 64 (c % 32 + c / 32 % 32 * 256 + c / 1024 * 2 ^ 16 + s.devNum * 2 ^ 18 + n % 4 * 2 ^ 36)

/-- JRNST (R317). -/
def Frame.jrnst (f : Frame) : Word :=
  .ofNat 64 ((List.finRange 16).foldl (fun w i =>
    w + f.journal[i].busy.toNat * 2 ^ i.val + f.journal[i].refused.toNat * 2 ^ (16 + i.val)) 0)

/-- JRNK (R317). -/
def Frame.jrnk (f : Frame) : Word :=
  .ofNat 64 ((List.finRange 16).foldl (fun w i =>
    w + (f.journal[i].sub.toNat + 4 * f.journal[i].kind.toNat) * 2 ^ (4 * i.val)) 0)

/-- QUANT's remaining cycles: an open value no larger than the quantum, for the model has no clock (R147). -/
def State.remain (s : State) (f : Frame) : Word :=
  .ofNat 64 (min (Config.quantRemaining s.freeCtr f.quantum.toNat) f.quantum.toNat)

/-- The value that a control register reads as in frame `n` holding `f`; none where the index names no register. -/
def State.crValue (s : State) (n : Nat) (f : Frame) (i : Nat) : Option Word :=
  if 0x20 ≤ i && i < 0x24 then f.pwb.toList[i - 0x20]?
  else if 0x24 ≤ i && i < 0x28 then f.pws.toList[i - 0x24]?
  else if 0x28 ≤ i && i < 0x2C then f.expw.toList[i - 0x28]?
  else if 0x110 ≤ i && i < 0x120 then (f.journal.toList[i - 0x110]?).map (·.addr)
  else if 0x120 ≤ i && i < 0x130 then (f.journal.toList[i - 0x120]?).map (·.data)
  else match i with
    | 0x001 => some f.fcsr
    | 0x002 => some (s.qflags (n / 4))
    | 0x010 => some f.fmta
    | 0x011 => some f.fmtb
    | 0x012 => some f.scla
    | 0x013 => some f.sclb
    | 0x018 => some f.rep.status
    | 0x01C => some f.tags
    | 0x01D => some f.tagerr
    | 0x030 => some (s.remain f)
    | 0x032 => some f.drainc
    | 0x034 => some f.vcnot
    | 0x038 => some netcap
    | 0x03C => some (.ofNat 64 f.urs)
    | 0x040 => some f.faulta
    | 0x041 => some f.faultb
    | 0x044 => some f.arrflt
    | 0x100 => some f.trapc
    | 0x101 => some f.trappc
    | 0x102 => some f.trapval
    | 0x104 => some f.hndbase
    | 0x105 => some f.hnddata
    | 0x106 => some f.tscr0
    | 0x107 => some f.tscr1
    | 0x108 => some (s.ctxid f)
    | 0x109 => some (s.coreid n)
    | 0x10C => some f.jrnst
    | 0x10D => some f.jrnk
    | _ => none

/-- Every index of R314. -/
def crIndices : List Nat :=
  [1, 2, 0x10, 0x11, 0x12, 0x13, 0x18, 0x1C, 0x1D, 0x20, 0x21, 0x22, 0x23, 0x24, 0x25, 0x26, 0x27, 0x28, 0x29, 0x2A, 0x2B,
   0x30, 0x32, 0x34, 0x38, 0x3C, 0x40, 0x41, 0x44, 0x100, 0x101, 0x102, 0x104, 0x105, 0x106, 0x107, 0x108, 0x109, 0x10C,
   0x10D] ++ (List.range 32).map (0x110 + ·)

/-- Where the record holds a control register (R320). -/
def crOffset (i : Nat) : Nat := if i < 0x100 then 0x180 + 8 * i else 0x400 + 8 * (i - 0x100)

/-! ### The record (R320) -/

/-- Pending asynchronous traps: JOURNAL, COPY, ARRAY, FABRIC. -/
def Frame.pendingBits (f : Frame) : Nat :=
  (!f.pendJournal.isEmpty).toNat + 2 * f.pendCopy.isSome.toNat + 4 * f.pendArray.isSome.toNat +
  8 * (!f.pendFabric.isEmpty).toNat

/-- The kind of a parked request in a record (log entry 14). -/
def ParkKind.code : ParkKind → Nat
  | .none => 0 | .request .. => 1 | .tagAny .. => 2 | .tagAll .. => 3 | .load .. => 4 | .slice => 5

/-- The bytes of a parked request in a record, up to the wake status. -/
def Frame.parkedBytes (f : Frame) : List Byte :=
  let (home, cell) := match f.parkedOn with
    | .request h c _ => (h, c.toNat)
    | .load a _ => (0, a.toNat)
    | _ => (0, 0)
  leBytes 8 home ++ leBytes 8 cell ++ leBytes 2 f.parkedOn.code ++ leBytes 1 f.parkD.toNat ++ leBytes 1 f.parkVd.toNat

/-- The record's fields of a frame's state with their offsets. -/
def State.recordFields (s : State) (n : Nat) (f : Frame) : List (Nat × List Byte) :=
  [(0x08, leBytes 8 f.pc.toNat), (0x10, leBytes 8 (s.coreid n).toNat), (0x18, leBytes 4 f.rank.toNat),
   (0x1C, leBytes 4 f.pendingBits)] ++
  (List.range 32).map (fun i => (0x40 + 8 * i, leBytes 8 (f.getS (.ofNat 5 i)).toNat)) ++
  (List.range 8).map (fun i => (0x140 + 8 * i, leBytes 8 (f.getP (.ofNat 3 i)).toNat)) ++
  crIndices.map (fun i => (crOffset i, leBytes 8 (((s.crValue n f i).getD 0).toNat))) ++
  (List.range 16).map (fun i => (0x580 + 8 * i, leBytes 8 ((f.locks[i]?.getD 0).toNat))) ++
  [(0x600, leBytes 8 ((f.watch.cell.getD 0).toNat) ++ leBytes 2 f.watch.ver.toNat), (0x610, f.parkedBytes)] ++
  (List.range 32).map (fun i => (0x1000 + 256 * i, (f.getV (.ofNat 5 i)).toList))

/-- Fields written into the record of a handle. -/
def State.writeFields (s : State) (h : Nat) (l : List (Nat × List Byte)) : State :=
  l.foldl (fun t e => t.homeWrite (s.recordAt h + e.1) e.2) s

/-- The sectors of a record, counted from its first, that hold a register of a bank: `n` bytes from a place on. -/
def poisonSpan (bad : Bool) (at_ n : Nat) : List Nat := if bad then sectorsOf at_ n else []

/-- The poison of a frame's registers goes with them to its record, in whole sectors (R320, R327). -/
def State.markRecord (s : State) (h : Nat) (f : Frame) : State :=
  let base := s.recordAt h / 32
  let bad :=
    (List.range 32).flatMap (fun i => poisonSpan (f.poisonS.getLsbD i) (0x40 + 8 * i) 8) ++
    (List.range 8).flatMap (fun i => poisonSpan (f.poisonP.getLsbD i) (0x140 + 8 * i) 8) ++
    (List.range 32).flatMap (fun i => poisonSpan (f.poisonV.getLsbD i) (0x1000 + 256 * i) 256)
  ({ s with poison := s.poison.filter fun sec => !(base ≤ sec && sec < base + 0x180) } : State).markPoison
    (bad.eraseDups.map (base + ·))

/-- A 64-bit word of a record. -/
def State.recordWord (s : State) (h off : Nat) : Word := .ofNat 64 (s.homeValue (s.recordAt h + off) 8)

/-- The registers of an image as the record now gives them: a supervisor's edits of register images take effect at restore
(R320). The watched cell stays as the device holds it, as do the registers that are no state of the frame (QFLAGS, QUANT, NETCAP, URS,
CTXID, COREID); ACTIVE cannot be set where the device has no body saved. A register is poisoned where a sector that holds it is (R327). -/
def State.readImage (s : State) (h : Nat) (f : Frame) : Frame :=
  let w := s.recordWord h
  let cr (i : Nat) : Word := w (crOffset i)
  let four (i : Nat) : Vector Word 4 := #v[cr i, cr (i + 1), cr (i + 2), cr (i + 3)]
  let base := s.recordAt h
  let bad (at_ n k : Nat) : Nat := ((List.range k).map fun i => (s.poisoned (base + at_ + n * i) n).toNat * 2 ^ i).foldl (· + ·) 0
  { f with
    pc := w 8
    poisonS := .ofNat 32 (bad 0x40 8 32 / 2 * 2)
    poisonP := .ofNat 8 (bad 0x140 8 8 / 2 * 2)
    poisonV := .ofNat 32 (bad 0x1000 256 32)
    rep := { f.rep with
      active := (cr 0x018).getLsbD 30 && !f.rep.body.isEmpty
      iter := bitsOf (cr 0x018).toNat 23 0, slot := bitsOf (cr 0x018).toNat 27 24, trapv := (cr 0x018).getLsbD 31
      cont := .ofNat 32 ((cr 0x018).toNat / 2 ^ 32) }
    watch := { f.watch with
      latest := .ofNat 16 (cr 0x034).toNat, stop := (cr 0x034).getLsbD 17, final := (cr 0x034).getLsbD 18 }
    journal := Vector.ofFn fun i : Fin 16 =>
      { f.journal[i] with
        busy := (cr 0x10C).getLsbD i.val, refused := (cr 0x10C).getLsbD (16 + i.val)
        sub := .ofNat 2 ((cr 0x10D).toNat / 2 ^ (4 * i.val)), kind := .ofNat 2 ((cr 0x10D).toNat / 2 ^ (4 * i.val + 2))
        addr := cr (0x110 + i.val), data := cr (0x120 + i.val) }
    rank := .ofNat 32 (s.homeValue (base + 0x18) 4)
    s := Vector.ofFn fun i : Fin 32 => if i.val = 0 then 0 else w (0x40 + 8 * i.val)
    p := Vector.ofFn fun i : Fin 8 => if i.val = 0 then -1 else w (0x140 + 8 * i.val)
    v := Vector.ofFn fun i : Fin 32 => Vector.ofFn fun j : Fin 256 => s.mem.get (base + 0x1000 + 256 * i.val + j.val)
    fcsr := cr 0x001 &&& 0x1F0F
    fmta := cr 0x010 &&& 0x1F
    fmtb := cr 0x011 &&& 0xF
    scla := cr 0x012 &&& 0x7FFE0
    sclb := cr 0x013 &&& 0x7FFE0
    tags := cr 0x01C
    tagerr := cr 0x01D
    pwb := four 0x20
    pws := four 0x24
    expw := (four 0x28).map (· &&& 0x7FFEFFFE0)
    drainc := cr 0x032
    faulta := cr 0x040
    faultb := cr 0x041
    arrflt := cr 0x044
    trapc := cr 0x100
    trappc := cr 0x101
    trapval := cr 0x102
    hndbase := cr 0x104
    hnddata := cr 0x105
    tscr0 := cr 0x106
    tscr1 := cr 0x107 }

/-- A saved context's image changed by the device, as its record now gives it: what changes reaches the record too (R322). -/
def State.updateImage (s : State) (h : Nat) (g : Frame → Frame) : State :=
  let c := s.ctxAt h
  match c.image with
  | none => s
  | some f =>
    let f0 := s.readImage h f
    let f1 := g f0
    let old := s.recordFields c.frame f0
    let new := (s.recordFields c.frame f1).filter fun e => !old.contains e
    (s.putCtx h { c with image := some f1 }).writeFields h new

/-- The first address of a frame's layout-record area (R150). -/
def recordArea (n : Nat) : Nat := localKey (n / 4) (0x4F000 + 0x400 * (n % 4))

end Sys2Proof.Machine
end

