-- ==== Sys2Proof/Machine/Messages.lean ====
section
/-! DEFINITION. The messages inside the device as they arrive: replies and wakes, the requests of engines and of the
distributor, notices, posted accesses at their homes and their acknowledgements (R159 to R169, R180 to R195, R236,
R244). Each event names its message by its place among those in flight; where there is none that it can deliver, it
changes nothing. -/

namespace Sys2Proof.Machine

/-- The home that orders a posted access: a slice, a core, or a slice's own memory (R236, R244). -/
def homeUnit (key : Nat) : Nat :=
  match regionOf key with
  | 0 => sliceOfPA key
  | 1 => 1000 + coreOfKey key
  | 2 => sliceOfKey key
  | _ => 10000

/-- The cell that a wake comes from. -/
def Msg.wakeCell : Msg → Option Nat
  | .reply r => if r.wake then some r.home else none
  | .parentWake _ _ _ home | .cardWake _ _ home | .xferWake _ _ _ home => home
  | .spilled home _ => some home
  | _ => none

/-- Two posted stores of one core, of which the later updated a line of its L1, to some of the same bytes: the frames of the core may
have read the later one there, and would go back if its home performed the earlier one after it (R238, R239). -/
def Posted.shadows (x y : Posted) : Bool :=
  x.frame / 4 == y.frame / 4 && !x.remote && x.kind == 0 && y.kind == 0 && y.inL1 && x.home < y.home + y.size &&
    y.home < x.home + x.size

/-- Whether an earlier posted access keeps a later one waiting: one of its context to the same home (R244), any of its
context before a release or a request, any store of the core before one at scope quad or wider (R243, R247), and one that the later
shadows in the L1 (R238). -/
def Posted.holds (x y : Posted) : Bool :=
  let mine := x.frame == y.frame && x.handle == y.handle
  let sameHome := x.remote == y.remote &&
    (if x.remote then devOf x.addr == devOf y.addr else homeUnit x.home == homeUnit y.home)
  (mine && (sameHome || y.release.isSome)) || (y.release == some true && x.frame / 4 == y.frame / 4 && x.kind != 1) || x.shadows y

/-- An object request that arrives from another device: its code, the waiter id, the tag, two operands, whether an agent acts on
its own behalf, and its payload (R343; its layout is log entry 12). -/
structure Asked where
  code : Nat
  id : Nat
  tag : Nat
  x : Nat
  y : Nat
  agent : Bool
  data : List Byte

/-- The object request of a packet. -/
def packetAsked (p : Packet) : Asked :=
  let g (o n : Nat) : Nat := leValue ((p.payload.drop o).take n)
  { code := g 0 1, id := g 1 5, tag := g 6 5, y := g 11 4, x := g 15 8, agent := g 23 1 ≠ 0, data := p.payload.drop 32 }

/-- A packet is an arrival with a contribution (R350). -/
def isArrival (p : Packet) : Bool := p.kind == 5 && (packetAsked p).code == 0x38

/-- Whether an earlier message keeps a later one waiting: posted accesses (`Posted.holds`), wakes of a
cell behind one that is read from the ring (R162), notices of a cell in the order of its steps, behind the reply that sets
the watch on it (R191), refires of a cell in the order of its versions (R193), acquires of one lock in list order (R182), the
abandonment of a lock behind the removal that the same OKILL sent to it (R183),
requests of one source from another device (R341), but for an arrival that waits for its contribution. -/
def Msg.holds : Msg → Msg → Bool
  | .posted x, .posted y => x.holds y
  | .notice c _ _ _, .notice d _ _ _ => c == d
  | .reply x, .notice c _ _ _ => match x.watch with | some (.set a _ _) => keyOf a == c | _ => false
  | .refire c _ _ _ _ _ _, .refire d _ _ _ _ _ _ => c == d
  | .spilled home _, y => y.wakeCell == some home
  | .cvAcquire _ l _ _, .cvAcquire _ k _ _ => l == k
  | .removal l x, .abandon k y _ => l == k && x == y
  | .arrived x _, .arrived y _ => x.cls != 2 && x.src == y.src && x.cls == y.cls && x.sep == y.sep && !isArrival x
  | _, _ => false

/-- A posted access may be performed: a release waits until every earlier access of its context is complete and, at scope
quad or wider, every store that its core issued before it acknowledged (R243, R247). -/
def State.mayPerform (s : State) (m : Posted) : Bool :=
  let f := s.frameAt m.frame
  match m.release with
  | none => true
  | some wide =>
    !(f.handle == m.handle && f.status != .empty && f.owes m.stamp) &&
    !(wide && s.coreOwesStore (m.frame / 4) m.stamp)

/-- A barrier's descriptor lies on another device and not all of it has come (R373). -/
def State.descPending (s : State) (cell : Nat) : Bool :=
  let a : Word := .ofNat 64 (s.cellGet cell 24 8)
  let c := s.combineAt cell
  s.cellTag cell == 2 && (s.cellGet cell 12 4).testBit 1 && addrForm a && !s.isLocal a && !c.descFailed &&
    c.desc.length < (if a.toNat % 32 = 0 then 1 else 2)

/-- The combine data that an arrival from another device names by its SEQ, with the window that admitted it (R338, R345). -/
def State.dataFor (s : State) (p : Packet) : Option (Packet × Nat) :=
  s.msgs.findSome? fun m => match m with
    | .arrived q w =>
      if q.kind == 11 && q.src == p.src && ingressOf q.sep.toNat == ingressOf p.sep.toNat && q.seq.toNat == (packetAsked p).x then
        some (q, w)
      else none
    | _ => none

/-- An arrival from another device whose contribution has still to come: neither among the messages nor refused. -/
def State.dataAwaited (s : State) (p : Packet) : Bool :=
  isArrival p && (packetAsked p).y % 2 ^ 16 != 0 && (s.dataFor p).isNone &&
    !(s.flowIn p.src.toNat (ingressOf p.sep.toNat) 2).delivered (.ofNat 11 (packetAsked p).x)

/-- The barrier on this device at which a message arrives with a contribution. -/
def State.combineCell (s : State) : Msg → Option Nat
  | .combine w _ _ => some w.cell
  | .parentArrival _ parent asid _ shape => match s.agentTarget asid parent with
    | .here k => if shape.isSome then some k else none
    | _ => none
  | _ => none

/-- The step of an engine that a message of an agent asks for, with its cell on this device: what a replay may hold (R371). -/
def State.askedStep (s : State) (m : Msg) : Option (Req × Nat) :=
  let here (asid : BitVec 16) (a : Word) (who : Waiter) : Option (Req × Nat) :=
    match s.agentTarget asid a with
    | .here k => some ({ who := who }, k)
    | _ => none
  let named (a : Word) (who : Waiter) : Option (Req × Nat) := if s.isLocal a then some ({ who := who }, keyOf a) else none
  match m with
  | .posted x => if x.kind = 1 && !x.remote then some ({ who := .ctx (s.waiterId x.handle) }, x.home) else none
  | .agentAdd a asid _ _ _ _ job => here asid a (.drain job)
  | .agentWait who a asid _ => here asid a who
  | .settle _ a asid => here asid a (.drain 0)
  | .vcack a asid _ => match asid with | some i => here i a (.drain 0) | none => some ({ who := .drain 0 }, keyOf a)
  | .removal a who | .abandon a who _ => named a (.ctx who)
  | .cvRelease _ lock asid who => here asid lock (.ctx who)
  | .cvAcquire _ lock asid w => here asid lock w.who
  | .parentArrival child parent asid _ _ => here asid parent (.child child)
  | .parentWake child _ _ _ => some ({ who := .child child }, child)
  | .refire cell version _ queue _ _ _ => named queue (.refire cell version)
  | .combine w _ _ => some (w.req, w.cell)
  | .abort cell => some ({ who := .drain 0 }, cell)
  | .arrived p _ =>
    let q := packetAsked p
    if p.kind = 5 then some ({ who := .remote p.src.toNat p.sep.toNat q.tag q.id q.agent }, p.target.toNat) else none
  | _ => none

/-- The destruction of a version cell that a packet asks for while what the cell has sent cannot yet complete (R196). -/
def State.destroyArrived (s : State) (p : Packet) (w : Nat) : Bool :=
  p.kind == 5 && (packetAsked p).code == 1 && regionOf p.target.toNat == 0 &&
    (match s.region0Agent (((tblGet? s.windows w).map (·.asid.toNat)).getD 0) p.target.toNat true { w := true } with
     | .ok (pa, _) => s.destroyHeld (s.cellOf pa)
     | .error _ => false)

/-- A message waits for another: a posted access of a release (R243, R247), a contribution for its arrival and an arrival for its
contribution, or both for a descriptor that has been asked for on another device (R373); a destruction for what its cell has sent (R196), a refire
for its card; or a replay holds its step (R371). -/
def State.awaits (s : State) (m : Msg) : Bool :=
  (s.replayOn && (match s.askedStep m with | some (r, k) => s.replayHolds r k | none => false)) ||
  match m with
  | .posted x => !s.mayPerform x
  | .arrived p w => p.kind == 11 || s.dataAwaited p || s.destroyArrived p w
  | .branch .. => true
  | .refire _ _ card _ _ asked got => asked && addrForm card && !s.isLocal card && got.length < 2
  | _ => match s.combineCell m with
    | some k => s.descPending k && (s.combineAt k).asked
    | none => false

/-- The `n`-th message may be delivered: no earlier one keeps it waiting, nor what it awaits. -/
def State.deliverable (s : State) (n : Nat) (m : Msg) : Bool :=
  ((s.msgs.take n).all fun e => !e.holds m) && !s.awaits m

/-- The state without its `n`-th message. -/
def State.dropMsg (s : State) (n : Nat) : State := { s with msgs := dropNth s.msgs n }

/-- The `n`-th message delivered by a meaning that says of which messages it is the delivery. -/
def State.onMsg (s : State) (n : Nat) (k : Msg → Option (State → State)) : Result :=
  .next (match s.msgs[n]? with
    | none => s
    | some m =>
      match k m with
      | none => s
      | some g => if s.deliverable n m then g (s.dropMsg n) else s)

/-! ### Replies and wakes (R164, R165, R167, R191) -/

/-- A watch set, raised or cleared by a reply (R188, R191). -/
def Watch.move (w : Watch) : WatchMove → Watch
  | .set c v stop => { cell := some c, ver := v, latest := v, stop := stop, final := false }
  | .raise c v => if w.cell = some c && w.ver.toNat < v.toNat then { w with ver := v } else w
  | .clear c => if w.cell = some c then {} else w

/-- The first bytes of a vector register replaced (R172, R181). -/
def putLanes (old : VVal) (bs : List Byte) : VVal := Vector.ofFn fun i : Fin 256 => bs[i.val]?.getD old[i]

/-- The results of a reply in a frame's registers, its held-lock list and its watch (R165, R167, R179, R188). -/
def Frame.takeReply (f : Frame) (r : Reply) : Frame :=
  let status : Word := r.status.setWidth 64
  let two (f : Frame) (x y : Word) : Frame := if r.d = 0 then f else (f.setS r.d x).setS (r.d + 1) y
  let f1 := match r.kind with
    | .plain => f.setS r.d status
    | .withValue => two f status r.value
    | .query => (f.setS r.d status).setVAll r.vd (putLanes (Vector.replicate 256 0) r.payload)
    | .pop => let g := two f status r.value
              if r.status = 0 then g.setV r.vd (putLanes (g.getV r.vd) r.payload) else g
    | .raw => if r.payload.isEmpty then f.setS r.d r.value else two f r.value (.ofNat 64 (leValue r.payload))
  { f1 with
    locks := match r.grant, r.unlock with
      | some l, _ => if f.locks.contains l then f.locks else f.locks ++ [l]
      | none, some l => f.locks.filter (· != l)
      | none, none => f.locks
    watch := match r.watch with | some m => f.watch.move m | none => f.watch }

/-- With d = 0, a status that is neither OK nor WOULDBLOCK raises OBJSTAT (R168). -/
def Reply.objstat (r : Reply) : Bool :=
  r.d = 0 && r.status.toNat ≠ 0 && r.status.toNat ≠ 1 && r.kind != .query && r.kind != .raw

/-- A parked frame that its reply has made READY (R130). -/
def Frame.unparked (f : Frame) : Frame := { f with status := .ready, parkedOn := .none }

/-- A reply or wake reaches a resident frame: that of an object request invalidates the L1 (R237, R247), the results are written, and the frame
is READY. A trap is precise at the group; an unreachable destination writes nothing and makes FABRIC pending (R344). -/
def State.finishReply (s : State) (n : Nat) (r : Reply) : State :=
  let f := s.frameAt n
  let h := f.handle.toNat
  let s0 := match f.parkedOn with
    | .slice => s
    | _ => s.putCore (n / 4) (s.coreAt (n / 4)).l1Clear
  let s1 := s0.putCtx h { s.ctxAt h with parked := false }
  match r.trap with
  | some (0x13, a) => s1.putFrame n { f.unparked with pendFabric := f.pendFabric ++ [(1, a)] }
  | some (c, v) =>
    (s1.putFrame n f.unparked).takeTrapIn n c.toNat (if c = 0x1F then 1 else 0) f.parkPc v f.parkLen 0
  | none =>
    let s2 := s1.putFrame n (f.takeReply r).unparked
    if r.objstat then s2.takeTrapIn n 8 r.status.toNat f.parkPc r.cell f.parkLen 0 else s2

/-- The payload of a reply packet, and whether more packets of it follow (R338; its layout is log entry 12). -/
def Reply.bytes (r : Reply) (more : Bool) : List Byte :=
  let (wk, ver, stop) := match r.watch with
    | none => (0, 0, 0)
    | some (.set _ v b) => (1, v.toNat, b.toNat)
    | some (.raise _ v) => (2, v.toNat, 0)
    | some (.clear _) => (3, 0, 0)
  leBytes 1 r.status.toNat ++ leBytes 1 (r.grant.isSome.toNat + 2 * r.unlock.isSome.toNat + 4 * more.toNat) ++
    leBytes 1 (match r.trap with | some (c, _) => c.toNat | none => 0) ++ leBytes 1 wk ++ leBytes 2 ver ++
    leBytes 1 stop ++ leBytes 1 r.payload.length ++ leBytes 8 r.value.toNat ++ leBytes 8 (r.grant.getD 0).toNat ++
    leBytes 8 r.position ++ r.payload ++ List.replicate ((32 - r.payload.length % 32) % 32) 0

/-- A reply or wake sent to a requester on another device: a payload of more than two beats, which only a collective's
result has, goes in several packets of its flow (R338, R339, R343). -/
def State.sendReply (s : State) (r : Reply) (src sep tag : Nat) : State :=
  let last := (r.payload.length - 1) / 64
  (List.range (last + 1)).foldl (fun t i =>
    let part : Reply := { r with payload := (r.payload.drop (64 * i)).take 64 }
    t.inject (t.packet src (sliceEndpoint (cellSlice r.home)) 6 1 (sep + tag * 4096) (part.bytes (i < last))) 0 .quiet) s

/-- A reply reaches its frame, or leaves for another device. -/
def execObjectReply (n : Nat) (s : State) : Result :=
  s.onMsg n fun m => match m with
    | .reply r => match r.who with
      | .ctx id =>
        let c := s.ctxAt (id % 2 ^ 20)
        if c.state = .resident && (s.frameAt c.frame).status = .parked then some (·.finishReply c.frame r) else none
      | .remote src sep tag _ _ => some (·.sendReply r src sep tag)
      | _ => none
    | _ => none

/-- A wake for a switched-out context: the results go into its image and its record, it is no longer PARKED and becomes
RUNNABLE (R322). A trap is then taken in its image; without a handler the context dies (R310). -/
def State.wakeSaved (s : State) (h : Nat) (r : Reply) : State :=
  let f := s.readImage h (((s.ctxAt h).image).getD {})
  let run (s : State) : State :=
    let c := s.ctxAt h
    ({ s.putCtx h { c with state := .runnable, parked := false, order := s.stamps } with
       stamps := s.stamps + 1 } : State).writeFields h
      [(0x624, leBytes 1 r.status.toNat ++ leBytes 1 1 ++ leBytes 8 r.value.toNat), (0x640, r.payload)]
  match r.trap with
  | some (0x13, a) => run (s.updateImage h fun f => { f.unparked with pendFabric := f.pendFabric ++ [(1, a)] })
  | some (c, v) =>
    if f.noHandler then
      (s.machineCheck (if f.inS then 2 else 6) c.toNat (dieOf ((s.ctxAt h).frame / 4)) 0 (s.waiterId f.handle)
        f.parkPc.toNat).killContext h f ((s.ctxAt h).frame / 4)
    else run (s.updateImage h fun f =>
      f.unparked.enterHandler c.toNat (if c = 0x1F then 1 else 0) f.parkPc v f.parkLen 0)
  | none =>
    if r.objstat && f.noHandler then
      (s.machineCheck (if f.inS then 2 else 6) 8 (dieOf ((s.ctxAt h).frame / 4)) 0 (s.waiterId f.handle)
        f.parkPc.toNat).killContext h f ((s.ctxAt h).frame / 4)
    else run (s.updateImage h fun f =>
      let g := (f.takeReply r).unparked
      if r.objstat then g.enterHandler 8 r.status.toNat f.parkPc r.cell f.parkLen 0 else g)

def execWakeSavedContext (n : Nat) (s : State) : Result :=
  s.onMsg n fun m => match m with
    | .reply r => match r.who with
      | .ctx id => if (s.ctxAt (id % 2 ^ 20)).state = .saved then some (·.wakeSaved (id % 2 ^ 20) r) else none
      | _ => none
    | _ => none

/-- The ring read of a spilled entry ends and its wake leaves (R162). -/
def execSpillRingWake (n : Nat) (s : State) : Result :=
  .next (match s.msgs[n]? with
    | some (.spilled home m) => if s.deliverable n (.spilled home m) then { s with msgs := s.msgs.set n m } else s
    | _ => s)

/-- A message to a DEAD context: a lock grant goes back as an abandonment, anything else is discarded (R183). -/
def execDeadContextMessage (n : Nat) (s : State) : Result :=
  s.onMsg n fun m => match m with
    | .reply r => match r.who with
      | .ctx id =>
        let c := s.ctxAt (id % 2 ^ 20)
        if c.state = .dead || c.state = .free then
          some fun s => match r.grant with | some l => s.send (.abandon l id false) | none => s
        else none
      | _ => none
    | _ => none

/-! ### Engines' own requests -/

/-- An agent's counter wait reaches its cell once no replay holds it any longer (R371). -/
def State.agentWaits (s : State) (who : Waiter) (a : Word) (asid : BitVec 16) (threshold : Option Word) : State :=
  let r : Req := { who := who, rk := .plain, addr := a }
  match s.agentTarget asid a with
  | .here k => s.request r k (match threshold with | some t => .cntWait t false | none => .cntZero)
  | _ => s.deliver r { status := 2 }

def execAgentCntadd (n : Nat) (s : State) : Result :=
  s.onMsg n fun m => match m with
    | .agentWait who a asid threshold => some (·.agentWaits who a asid threshold)
    | .agentAdd cell asid x marks call sep job => some (·.agentCntAdd cell asid x marks sep (.add call job) job)
    | _ => none

/-- The gateway of a barrier asks once for its descriptor on another device (R373). -/
def State.fetchDesc (s : State) (cell : Nat) : State :=
  let a : Word := .ofNat 64 (s.cellGet cell 24 8)
  let c := s.combineAt cell
  if c.asked then s
  else
    let s1 : State := { s with combines := tblPut s.combines cell { c with asked := true } }
    (List.range (if a.toNat % 32 = 0 then 1 else 2)).foldl (fun t i =>
      t.sendRead (sliceEndpoint (cellSlice cell)) (.ofNat 64 (a.toNat / 32 * 32 + 32 * i)) (.desc cell i)) s1

/-- Complete() at a child barrier, or its abort (R173, R175, R352): a step on it (R157). -/
def State.childEnded (s : State) (child status : Nat) (data : List Byte) : State :=
  if s.cellTag child = 2 then (s.objStep { who := .child child } child (.complete status data)).1 else s

/-- A finished child arrives at its parent as an internal waiter, with its accumulator (R175, R351). Where the parent is
no usable barrier the child aborts (R352). -/
def State.arriveAtParent (s : State) (child : Nat) (parent : Word) (asid : BitVec 16) (data : List Byte) (shape : Shape) :
    State :=
  let r : Req := { who := .child child, addr := parent }
  let op : ObjOp := if shape.isNone && data.isEmpty then .arrive true else .combine data shape
  let u := s.agentLooked (homeNode child) asid parent
  match s.agentTarget asid parent with
  | .here k => if s.cellTag k = 2 then u.request r k op else u.childEnded child 4 []
  | .away => u.sendOp (.child child) parent op (.object { who := .child child, addr := parent, parks := true })
  | .bad => u.childEnded child 4 []

/-- An arrival with a contribution is delivered once its barrier's descriptor is at hand; one on another device is asked for
first (R351, R373). -/
def State.whenDescribed (s : State) (n : Nat) (k : Msg → Option (State → State)) : Result :=
  match (s.msgs[n]?).bind s.combineCell with
  | some cell => if s.descPending cell then .next (s.fetchDesc cell) else s.onMsg n k
  | none => s.onMsg n k

def execParentArrival (n : Nat) (s : State) : Result :=
  s.whenDescribed n fun m => match m with
    | .parentArrival child parent asid data shape => some (·.arriveAtParent child parent asid data shape)
    | _ => none

/-- The parent's wake: Complete() runs at the child, or the child aborts (R173, R175, R352). -/
def execParentCompleteWake (n : Nat) (s : State) : Result :=
  s.onMsg n fun m => match m with
    | .parentWake child status data _ => some (·.childEnded child status.toNat data)
    | _ => none

/-- The lock of a condition was not released for a waiter: a step on the condition takes it out and answers it (R157, R182). -/
def State.cvRefused (s : State) (cell who status : Nat) : State :=
  if status ≠ 0 && s.cellTag cell = 5 then (s.objStep { who := .ctx who } cell (.unreleased status)).1 else s

/-- The release of a lock on a condition waiter's behalf, under the ASID that created the condition (R182, R373). -/
def State.releaseFor (s : State) (cell : Nat) (lock : Word) (asid : BitVec 16) (who : Nat) : State :=
  let u := s.agentLooked (homeNode cell) asid lock
  match s.agentTarget asid lock with
  | .here k =>
    if s.cellTag k = 3 then
      let (s1, a) := (u.crossed (homeNode cell) (homeNode k) 2 false).objStep { who := .ctx who, addr := lock } k .cvRelease
      s1.cvRefused cell who ((a.map (·.code.toNat)).getD 0)
    else u.cvRefused cell who 9
  | .away => u.sendFrom (sliceEndpoint (cellSlice cell)) (.ctx who) lock 0x34 0 0 [] (.cvRelease cell who)
  | .bad => u.cvRefused cell who 9

def execCvLockRelease (n : Nat) (s : State) : Result :=
  s.onMsg n fun m => match m with
    | .cvRelease cell lock asid who => some (·.releaseFor cell lock asid who)
    | .cvFailed cell who => some (·.cvRefused cell who 9)
    | _ => none

/-- A signalled waiter's TLKACQ arrives at the lock; where there is no live lock the waiter is answered INVALID
(R182; log entry 20). Those of one condition leave for another device by one flow, in their order (R341). -/
def State.acquireFor (s : State) (cell : Nat) (lock : Word) (asid : BitVec 16) (w : Wait) : State :=
  let u := s.agentLooked (homeNode cell) asid lock
  match s.agentTarget asid lock with
  | .here k =>
    if s.cellTag k = 3 then
      match (u.crossed (homeNode cell) (homeNode k) 2 false).objStep w.req k .moved with
      | (s1, some a) => s1.answer w.req a k
      | (s1, none) => s1
    else u.answer w.req { status := 9 } cell
  | .away => u.sendFrom (sliceEndpoint (cellSlice cell)) w.who lock 0x35 0 0 []
      (.object { who := w.who, kind := w.rk, d := w.d, vd := w.vd, addr := w.addr, lock := lock, parks := true })
  | .bad => u.answer w.req { status := 9 } cell

def execCvMovedAcquire (n : Nat) (s : State) : Result :=
  s.onMsg n fun m => match m with
    | .cvAcquire cell lock asid w => some (·.acquireFor cell lock asid w)
    | _ => none

/-- One of an OKILL's messages has been answered: with the last, OKILL replies (R183). -/
def State.cleanStep (s : State) (h count : Nat) : State :=
  let c := s.ctxAt h
  match c.cleanFor with
  | none => s
  | some w =>
    let w1 := { w with arg := w.arg + count }
    if c.cleanPending ≤ 1 then s.cleanReply h w1
    else s.putCtx h { c with cleanFor := some w1, cleanPending := c.cleanPending - 1 }

/-- The abandonment of a lock by a waiter id (R180). -/
def State.abandonLock (s : State) (lock : Word) (who : Nat) (counted : Bool) : State :=
  let r : Req := { who := .ctx who, addr := lock }
  let count (s : State) (n : Nat) : State := if counted then s.cleanStep (who % 2 ^ 20) n else s
  if s.isLocal lock then
    let k := keyOf lock
    if s.cellTag k = 3 then
      let (s1, a) := (s.carried r.who k 0 false).objStep r k .abandon
      count s1 ((a.map (·.value)).getD 0)
    else count s 0
  else s.sendObject (.ctx who) lock 0x37 0 0 [] (if counted then .clean (who % 2 ^ 20) else .quiet)

def execLockAbandon (n : Nat) (s : State) : Result :=
  s.onMsg n fun m => match m with
    | .abandon lock who counted => some (·.abandonLock lock who counted)
    | _ => none

/-- The removal of a dead context's waiter from a cell's list (R183). -/
def State.removeWaiter (s : State) (cell : Word) (who : Nat) : State :=
  if s.isLocal cell then
    let (s1, a) := (s.carried (.ctx who) (keyOf cell) 0 false).objStep { who := .ctx who, addr := cell } (keyOf cell) .removal
    s1.cleanStep (who % 2 ^ 20) ((a.map (·.value)).getD 0)
  else s.sendObject (.ctx who) cell 0x39 0 0 [] (.clean (who % 2 ^ 20))

def execWaiterRemoval (n : Nat) (s : State) : Result :=
  s.onMsg n fun m => match m with
    | .removal cell who => some (·.removeWaiter cell who)
    | .cleaned h count => some (·.cleanStep h count)
    | _ => none

/-! ### Refinement (R189 to R195) -/

def execSettleAdd (n : Nat) (s : State) : Result :=
  s.onMsg n fun m => match m with
    | .settle cell counter asid =>
      some (·.agentCntAdd counter asid 1 0 (sliceEndpoint (cellSlice cell)) (.settle cell))
    | _ => none

/-- REFIRE_PUSH: the push of a refire card; of one on another device first its two beats are asked for (R193, R373). -/
def execRefirePush (n : Nat) (s : State) : Result :=
  .next (match s.msgs[n]? with
    | some (.refire cell version card queue asid asked got) =>
      if !s.deliverable n (.refire cell version card queue asid asked got) then s
      else if !addrForm card || s.isLocal card then (s.dropMsg n).refirePush cell version card queue asid got
      else if !asked then
        let s1 : State := { s with msgs := s.msgs.set n (.refire cell version card queue asid true got) }
        [0, 1].foldl (fun t i => t.sendRead (sliceEndpoint (cellSlice cell)) (card + .ofNat 64 (32 * i)) (.card cell version i)) s1
      else if 2 ≤ got.length then (s.dropMsg n).refirePush cell version card queue asid got
      else s
    | _ => s)

/-- A refire that failed: the acknowledgement that the refire path owes is discharged and a machine check of kind 9
names the cell (R193). -/
def State.refireFailed (s : State) (cell version : Nat) : State :=
  let s1 := if s.cellTag cell = 6 then (s.objStep { who := .refire cell version } cell (.discharge version)).1 else s
  s1.machineCheck 9 (cellSlice cell % 48) (cellSlice cell / 48) cell 0 0

def execRefireLost (n : Nat) (s : State) : Result :=
  s.onMsg n fun m => match m with
    | .refireLost cell version => some (·.refireFailed cell version)
    | _ => none

/-- The distributor's VCACK for an ended refinement job; INVALID is discarded (R195). -/
def State.ackFor (s : State) (cell : Word) (asid : Option (BitVec 16)) (version : Nat) : State :=
  let u := match asid with | some x => s.agentLooked controlNode x cell | none => s
  match (match asid with | some x => s.agentTarget x cell | none => .here (keyOf cell)) with
  | .here k =>
    if s.cellTag k = 6 then ((u.carried (.drain 0) k 0 false).objStep { who := .drain 0 } k (.ack (.ofNat 64 version))).1 else u
  | .away => u.sendObject (.drain 0) cell 0x25 version 0 [] .quiet
  | .bad => s

def execDistributorVcack (n : Nat) (s : State) : Result :=
  s.onMsg n fun m => match m with
    | .vcack cell asid version => some (·.ackFor cell asid version)
    | _ => none

/-- A notice taken into a watch (R191). -/
def Watch.notice (w : Watch) (cell : Word) (v : BitVec 16) (stop final : Bool) : Watch :=
  if w.cell = some cell then
    { w with latest := if w.latest.toNat < v.toNat then v else w.latest, stop := w.stop || stop,
             final := w.final || final }
  else w

/-- A refinement-consumer card (+27 bit 4) and its version (R193). -/
def Job.refines (j : Job) : Bool := (leValue ((j.card.drop 27).take 1)).testBit 4
/-- The version that a refinement consumer's card names (R193). -/
def Job.version (j : Job) : Nat := leValue ((j.card.drop 40).take 2)
/-- A 64-bit field of a card. -/
def Job.field (j : Job) (off : Nat) : Word := .ofNat 64 (leValue ((j.card.drop off).take 8))

/-! ### Posted accesses (R236, R244, R261, R317) -/

/-- What CCLEAN, CINV and CDISC do to their line at its home (R227, R261): write back, write back and invalidate, or drop the
dirty sectors, for which memory holds again what DRAM holds; its clean sectors stay. A pinned line that is invalidated keeps its place, to be refilled there (R225). -/
def State.lineOp (s : State) (key : Nat) (op : BitVec 2) : State :=
  let n := key / 256
  match findLine s.lines n with
  | none => s
  | some l =>
    let clean : SliceLine := { l with dirty := 0, dram := [] }
    let back (s : State) : State :=
      if op = 2 then { s with mem := l.dram.foldl (fun m e => m.write (e.1 * 32) e.2) s.mem } else s
    let kept : SliceLine :=
      if op = 0 then clean else if op = 1 then { clean with valid := 0 } else { clean with valid := l.valid &&& ~~~l.dirty }
    let keepIt := op = 0 || l.pin.isSome || (op = 2 && kept.valid ≠ 0)
    let s1 := back s
    { s1 with lines := if keepIt then s.lines.map fun x => if x.line = n then kept else x
                       else s.lines.filter (·.line != n) }

/-- A posted access performed at its home, or refused there with a cause (R209, R214, R236). A CNTADD.P that finds the function which
keeps the objects out of service has no effect, and its acknowledgement says nothing of it (R169, R364; log entry 122). -/
def State.performPosted (s : State) (m : Posted) : Except Nat State :=
  if m.kind = 1 then
    if !s.dev.ready.getLsbD 3 then .ok s
    else match s.objStep { who := .ctx (s.waiterId m.handle), addr := m.addr } m.home (.cntAdd m.data 0) with
    | (s1, some a) => match a.trap with | some (c, _) => .error c.toNat | none => .ok s1
    | (s1, none) => .ok s1
  else if m.kind = 2 then .ok (s.lineOp m.home m.sub)
  else
    let ok := match regionOf m.home with
      | 1 => s.exposed (coreOfKey m.home) (localOfKey m.home) m.size false
      | 2 => s.scratchBank m.home m.part
      | _ => true
    if ok then .ok (s.homeWrite m.home (leBytes m.size m.data.toNat) m.hint) else .error 6

/-- A posted access has crossed the mesh from its core to its home, and what answers it has come back (R220). -/
def State.postedTravel (s : State) (m : Posted) : State :=
  s.roundTrip (coreNode (m.frame / 4)) (homeNode m.home) (if m.kind = 2 then 1 else 2) 1

/-- The packet of a posted access to another device (R339, R343): a store, or an object or line request. -/
def State.sendPosted (s : State) (m : Posted) : State :=
  let sep := coreEndpoint (m.frame / 4)
  let what : RemoteWhat := .posted m.frame m.handle m.entry
  let s1 := s.crossed (coreNode (m.frame / 4)) (gatewayNode (ingressOf sep)) 2 false
  if m.kind = 1 then
    s1.inject (s.packet (devOf m.addr) sep 5 0 (keyOf m.addr)
      (objectPayload 5 (s.waiterId m.handle) 0 m.data.toNat 0 [])) m.addr what
  else
    let code := if m.kind = 2 then 0x10 + m.sub.toNat else m.sub.toNat
    s1.inject (s.packet (devOf m.addr) sep 2 0 (keyOf m.addr) (leBytes 8 m.data.toNat ++ leBytes 1 code ++ leBytes 23 0))
      m.addr what

/-- A journal entry of a frame changed. -/
def Frame.setEntry (f : Frame) (e : Nat) (g : JEntry → JEntry) : Frame :=
  if h : e < 16 then { f with journal := f.journal.set e (g f.journal[e]) h } else f

/-- A refused journal entry: REFD set, JOURNAL pending (R317). -/
def Frame.refuse (f : Frame) (e : Nat) (c : BitVec 8) : Frame :=
  let g := f.setEntry e fun x => { x with refused := true }
  { g with pendJournal := g.pendJournal ++ [(e, c)] }

/-- A context is switched out and not dead (R320). -/
def State.isSaved (s : State) (h : BitVec 20) : Bool :=
  (s.ctxAt h.toNat).state == .saved || (s.ctxAt h.toNat).state == .runnable

/-- The acknowledgement frees the journal entry; for a context that is gone it is discarded (R244, R325). -/
def execStoreAck (n : Nat) (s : State) : Result :=
  s.onMsg n fun m => match m with
    | .ack f h e => some fun s =>
      if (s.frameAt f).handle = h && (s.frameAt f).status != .empty then
        (s.putFrame f ((s.frameAt f).setEntry e fun _ => {})).settleFences (f / 4)
      else if s.isSaved h then s.updateImage h.toNat fun g => g.setEntry e fun _ => {}
      else s.settleFences (f / 4)
    | _ => none

/-- The refusal sets REFD and makes JOURNAL pending (R317). -/
def execStoreRefusal (n : Nat) (s : State) : Result :=
  s.onMsg n fun m => match m with
    | .refusal f h e c => some fun s =>
      if (s.frameAt f).handle = h && (s.frameAt f).status != .empty then
        (s.putFrame f ((s.frameAt f).refuse e c)).settleFences (f / 4)
      else if s.isSaved h then s.updateImage h.toNat (·.refuse e c)
      else s.settleFences (f / 4)
    | _ => none

/-- A remote access's value reaches its frame: the register is written and the frame READY; a refusal is a precise trap
at the group, of poisoned memory with DETAIL 1 (R327), an unreachable destination a FABRIC without any register written (R343, R344). An acquire invalidates the
L1 (R237). -/
def State.loadArrived (s : State) (n : Nat) (d : SReg) (v : Word) (trap : Option (BitVec 8 × Word)) : State :=
  let f := s.frameAt n
  match trap with
  | some (0x13, a) => s.putFrame n { f.unparked with pendFabric := f.pendFabric ++ [(1, a)] }
  | some (c, a) => (s.putFrame n f.unparked).takeTrapIn n c.toNat (if c = 0x1F then 1 else 0) f.parkPc a f.parkLen 0
  | none =>
    let s1 := s.putFrame n (f.setS d v).unparked
    match f.parkedOn with
    | .load _ true => s1.putCore (n / 4) (s1.coreAt (n / 4)).l1Clear
    | _ => s1

def execLoadReply (n : Nat) (s : State) : Result :=
  s.onMsg n fun m => match m with
    | .load f h d v trap =>
      if (s.frameAt f).handle = h && (s.frameAt f).status = .parked then
        some fun s => (s.loadArrived f d v trap).settleFences (f / 4)
      else some (·.settleFences (f / 4))
    | _ => none

end Sys2Proof.Machine
end

