-- ==== Sys2Proof/Machine/Switch.lean ====
section
/-! DEFINITION. Switching a context out and restoring it (R318 to R324), and what a kill, a quad reset or a die fence
does to the contexts and engines of a quad (R325, R326, R334). -/

namespace Sys2Proof.Machine

/-! ### Switch-out (R319, R320) -/

/-- A started TMMA is stopped: the accumulator is restored from its shadow (R318). -/
def State.stopTmma (s : State) (n : Nat) : State × Option Tmma :=
  let c := s.coreAt (n / 4)
  match c.tmma with
  | some t => if t.frame = n then (s.putCore (n / 4) { c.setA t.d t.shadow with tmma := none }, some t) else (s, none)
  | none => (s, none)

/-- A frame is told to stop: it issues nothing further, its started TMMA is stopped, to be executed again after restore (R318), and one
in SWAP leaves it, its read cancelled (R319). -/
def State.stopFrame (s0 : State) (n : Nat) (cause : Nat) (w : List Wait := []) : State :=
  let (s, stopped) := s0.stopTmma n
  let f := s.frameAt n
  let c := s.coreAt (n / 4)
  let mine := c.issuing = some (.ofNat 2 n)
  (s.putFrame n { f with
    stopping := some (.ofNat 8 cause), stopFor := f.stopFor ++ w, replay := stopped.orElse fun _ => f.replay,
    status := if f.status = .issuing || f.status = .swap then .ready else f.status }).putCore (n / 4)
    { c with swapQueue := c.swapQueue.filter (· != .ofNat 2 n), issuing := if mine then none else c.issuing, lastFrame := if mine then .ofNat 2 n else c.lastFrame }

/-- A stopped frame may be saved: it holds a context, its loads are complete and URS is 0 (R252, R319). -/
def Frame.savable (f : Frame) : Bool :=
  f.stopping.isSome && f.status != .empty && f.status != .loading && f.complete &&
  (match f.parkedOn with | .load .. => f.status != .parked | _ => true)

/-- Bytes copied from one home to another with their poison (R327). -/
def State.copyArea (s : State) (src dst n : Nat) : State := (s.homeWrite dst (s.mem.read src n)).carryPoison src dst n

/-- The matrix image of a frame written to a record: the bank while the frame owns it, else its save area (R320). -/
def State.putMatrixImage (s : State) (n at_ : Nat) : State :=
  if (s.coreAt (n / 4)).owner = some (.ofNat 2 n) then s.putBank at_ (s.coreAt (n / 4))
  else s.copyArea (localKey (n / 4) (saveArea n)) at_ 0x8000

/-- What a record holds of a stopped TMMA after its header: the samples of its scales, then of its block (R320). -/
def Tmma.samples (t : Tmma) : List Byte :=
  let scales := (t.scaleA ++ t.scaleB).flatMap fun x => leBytes 4 x.toNat
  scales ++ List.replicate (256 - scales.length) 0 ++ t.block

/-- What the device keeps in a record for itself (R320): the sequencer's state while a repetition is saved, in a format
of the device's, and a stopped TMMA: its header, the samples of its scales and of its block. Bytes of a format that the
spec does not give are open; a header that holds nothing is zero (log entry 86). -/
def State.putPrivate (s : State) (h : Nat) (f : Frame) (t : Option Tmma) : State :=
  let base := s.recordAt h
  let s1 :=
    if f.rep.active then
      let (w, u) := s.fresh 8192
      u.homeWrite (base + 0x800) (leBytes 1024 w.toNat)
    else s
  match t with
  | none => s1.homeWrite (base + 0xC000) (leBytes 64 0)
  | some t =>
    let (w, u) := s1.fresh 512
    u.homeWrite (base + 0xC000) (leBytes 64 w.toNat ++ t.samples)

/-- The part of a record that a wake will write, before one has come: none has arrived, and the rest is open (R320). -/
def noWake (w : BitVec 592) : List (Nat × List Byte) :=
  [(0x624, leBytes 1 w.toNat ++ [0] ++ leBytes 8 (w.toNat / 2 ^ 8)), (0x640, leBytes 64 (w.toNat / 2 ^ 72))]

/-- The record written and the frame left EMPTY (R319, R320): the state is SAVED while the frame is parked, else
RUNNABLE; PARKED says that a request of it stands at a home slice. The return-address stack is not saved (R87). -/
def State.saveFrame (s : State) (n : Nat) : State :=
  let f := s.frameAt n
  let h := f.handle.toNat
  let (s1, stopped) := (s.sampleFlags (n / 4)).stopTmma n
  let t := stopped.orElse fun _ => f.replay
  let parked := f.status = .parked
  let image : Frame :=
    { f with status := if parked then .parked else .ready, windowsOpen := false, stopping := none, stopFor := []
             ras := [], replay := none }
  let (wake, s1) := s1.fresh 592
  let s2 := (s1.writeFields h (s1.recordFields n image ++ noWake wake)).markRecord h f
  let s3 := s2.copyArea (recordArea n) (s2.recordAt h + 0xC00) 1024
  let s4 := if f.ownedMatrix then s3.putMatrixImage n (s3.recordAt h + 0x4000) else s3
  let s4 := s4.putPrivate h f t
  let s5 := s4.putCtx h
    { s4.ctxAt h with
        state := if parked then .saved else .runnable
        parked := parked && f.requesting, matrix := f.ownedMatrix, rept := f.rep.active, inh := f.inS
        swcause := f.stopping.getD 0, frame := n, image := some image, tmma := t, order := s4.stamps }
  let s6 := ({ s5 with stamps := s5.stamps + 1 } : State).putFrame n
    { f.emptied with sliced := if f.stopping = some 0x18 then some h else none }
  let s7 := s6.putCore (n / 4) ((s6.coreAt (n / 4)).leave n)
  f.stopFor.foldl (fun u w => u.deliver w.req {}) s7

/-! ### Restore (R322) -/

/-- A context restored into a frame: registers from its record, its layout area and matrix image, the L1 invalidated,
its windows open again; with a stopped TMMA the frame waits in SWAP for the bank, to execute it again before any other
group (R318); a frame that is still parked (R323) does so once its wake has come. REPT and INH of the STATE word stay as the
last save wrote them (log entry 130). -/
def State.restore (s0 : State) (h n : Nat) : State :=
  let s := s0.sampleFlags (n / 4)
  let c := s.ctxAt h
  let core := n / 4
  let f0 := (c.image).getD {}
  let f := { s.readImage h f0 with
    windowsOpen := true, quantum := ((s.part f0.part.toNat).levels.toList[f0.level.toNat]?.getD {}).quantum,
    stamp := s.stamps, layoutJob := f0.layoutJob }
  let s1 := ({ s with stamps := s.stamps + 1 } : State).copyArea (s.recordAt h + 0xC00) (recordArea n) 1024
  let s2 :=
    if c.matrix then s1.copyArea (s1.recordAt h + 0x4000) (localKey core (saveArea n)) 0x8000 else s1
  let swaps := c.tmma.isSome && f.status != .parked
  let f1 := { f with replay := c.tmma, status := if swaps then .swap else f.status }
  let co := (s2.coreAt core).l1Clear
  let co1 := if swaps then { co with swapQueue := co.swapQueue ++ [.ofNat 2 n] } else co
  let s3 := (s2.putFrame n f1).putCore core co1
  s3.putCtx h { c with state := .resident, image := none, tmma := none, frame := n }

/-- A context that may be restored into a frame: RUNNABLE, not held, of that core (R322, R324). -/
def State.restorable (s : State) (h n : Nat) : Bool :=
  let c := s.ctxAt h
  c.state == .runnable && !c.held && c.frame / 4 == n / 4 && (s.frameAt n).status == .empty &&
  !(s.quadAt (quadOf (n / 4))).resetting && !s.fenced.getLsbD (dieOf (n / 4))

/-! ### Blocks of a copy engine as the rest of the device sees them (R273, R326, R348, R349) -/

/-- A little-endian field of a command. -/
def cmdField (raw off n : Nat) : Nat := bitsOf raw (8 * off + 8 * n - 1) (8 * off)

/-- LO_i and COUNT_i of a group record. -/
def groupRange (g i : Nat) : Nat × Nat := (cmdField g (6 * i) 3, cmdField g (6 * i + 3) 3)

/-- The members of a group other than by SELF, then SELF as the record says. -/
def State.groupMembers (s : State) (g : Nat) : List Nat :=
  let inRange (dev : Nat) : Bool := (List.range s.podDims).all fun i =>
    let (lo, n) := groupRange g i
    let k := s.podSize i
    (s.coordOf dev i + k - lo % k) % k < n
  let others := (List.range s.podDevices).filter fun dev => inRange dev && dev != s.devNum
  if g.testBit 288 then others ++ [s.devNum] else others

/-- The transfer kinds. -/
def Block.isTransfer (b : Block) : Bool :=
  match b.kind with
  | .xfer | .xferCh | .mcst => true
  | _ => false

/-- The command of a block that runs next. -/
def Block.cmd (b : Block) : Option Cmd := b.cmds[b.next]?

/-- The endpoint that sends a block's counter adds: the copy engine's core; of a transfer its ingress gateway (R348). -/
def Block.endpoint (b : Block) : Nat :=
  let core := coreEndpoint (b.frame / 4)
  if b.isTransfer then gatewayEndpoint (ingressOf core) else core

/-- A counter add of a block. -/
def State.blockAdd (s : State) (b : Block) (a : Word) (marks : Nat) : State :=
  if a = 0 then s else s.send (.agentAdd a b.asid 1 marks none b.endpoint (b.job.getD 0))

/-- The address with another device's number. -/
def withDev (a : Word) (dev : Nat) : Word := .ofNat 64 (dev * 2 ^ 46 + keyOf a)

/-- The remote counters of a transfer: its own, or that of each member (R348, R349). -/
def State.remoteCounters (s : State) (b : Block) (x : Cmd) : List (Nat × Word) :=
  let a : Word := .ofNat 64 (cmdField x.raw 40 8)
  if a = 0 then []
  else if b.kind == .mcst then (s.groupMembers x.group).map fun m => (m, withDev a m)
  else [(devOf (.ofNat 64 (cmdField x.raw 8 8)), a)]

/-- The local counter, where EARLY has not given it its add already. -/
def Block.localCounter (b : Block) (x : Cmd) : Word := if b.early then 0 else .ofNat 64 (cmdField x.raw 48 8)

/-- The marked adds of a block that stops (R326): of a transfer each counter whose add has not left, else the block's own. -/
def State.stoppedAdds (s : State) (b : Block) : State :=
  match b.isTransfer, b.cmd with
  | true, some x =>
    let s1 := ((s.remoteCounters b x).filter fun e => !b.added.contains e.1).foldl (fun t e => t.blockAdd b e.2 1) s
    s1.blockAdd b (b.localCounter x) 1
  | true, none => s
  | false, _ => s.blockAdd b b.counter 1

/-! ### Kills (R325, R326, R334) -/

/-- The contexts of a set of cores, resident and saved. -/
def State.contextsOf (s : State) (p : Nat → Bool) : List Nat × List Nat :=
  ((s.frames.filter fun e => p (e.1 / 4) && e.2.status != .empty).map (·.1),
   (s.ctxs.filter fun e => p (e.2.frame / 4) && (e.2.state == .saved || e.2.state == .runnable)).map (·.1))

/-- Every context of a set of cores becomes DEAD. -/
def State.killCores (s : State) (p : Nat → Bool) : State :=
  let (res, saved) := s.contextsOf p
  let s1 := res.foldl (fun t n => t.killFrame n) s
  saved.foldl (fun t h => match (t.ctxAt h).image with
    | some f => t.killContext h f ((t.ctxAt h).frame / 4)
    | none => t) s1

/-- The posted accesses of a set of cores are lost (R326). -/
def State.losePosted (s : State) (p : Nat → Bool) : State :=
  { s with msgs := s.msgs.filter fun m => match m with | .posted x => !p (x.frame / 4) | _ => true }

/-- The blocks of a core's copy engine stop; each sends its counter add with the error mark (R326). -/
def State.stopBlocks (s : State) (core : Nat) : State :=
  let c := s.coreAt core
  c.fifo.foldl (fun t b => t.stoppedAdds b) (s.putCore core { c with fifo := [] })

/-- A port's last packet, where it has not begun to leave and comes from one of a set of cores: what a stopped quad may have
injected in part. -/
def Port.halfInjected (x : Port) (own : BitVec 18) (p : Nat → Bool) : Bool :=
  match x.waiting.getLast? with
  | some q => q.src == own && q.kind.toNat != 14 && coreExists q.sep.toNat && p q.sep.toNat
  | none => false

/-- A packet half injected by a stopped quad is truncated with an error tail (R326 step 2). Which packet, if any, stood half
injected is open: the model takes or leaves the last that waits at each port (log entry 111). -/
def State.truncateHalf (s : State) (p : Nat → Bool) : State :=
  (List.range 24).foldl (fun t n =>
    let x := t.portAt n
    if x.halfInjected t.dev.dev p then
      let (bit, u) := t.fresh 1
      u.putPort n { x with waiting := x.waiting.dropLast ++
        (x.waiting.getLast?.toList.map fun q => { q with trailer := { q.trailer with errorTail := bit == 1 } }) }
    else t) s

/-- A core's scratchpad, matrix bank, L1 and queues cleared to zero (R326, R334). -/
def State.clearCore (s : State) (core : Nat) : State :=
  let s1 := s.clearRange (localKey core 0) (localKey core 0x80000)
  [0, 1, 2, 3].foldl (fun t k => t.putFrame (core * 4 + k) {}) (s1.putCore core {})

/-- The core word of a core (R267). -/
def State.coreWord (s : State) (core : Nat) : Nat := ((s.coreid (core * 4)).toNat) % 2 ^ 36

/-- The isolation reset of a quad (R326). -/
def State.resetQuad (s : State) (q : Nat) : State :=
  let cores := coresOfQuad q
  let p (c : Nat) : Bool := cores.contains c
  let s1 := (((s.sampleFlags q).truncateHalf p).killCores p).losePosted p
  let s2 := cores.foldl (fun t c => (t.stopBlocks c).clearCore c) s1
  (s2.putQuad q { resetting := true }).machineCheck 3 0 (dieOf q) 0 (s.coreWord q) 0

/-- QUAD_RESET: started for the quad of a core (R326, R363). -/
def execQuadReset (c : Nat) (s : State) : Result :=
  .next (if coreExists c then s.resetQuad (quadOf c) else s)

/-- The 4,096 cycles end and the quad accepts chunks again (R326). -/
def execQuadResetComplete (c : Nat) (s : State) : Result :=
  let q := quadOf c
  let t := s.sampleFlags q
  .next (if (s.quadAt q).resetting then t.putQuad q { t.quadAt q with resetting := false } else s)

end Sys2Proof.Machine
end

