-- ==== Sys2Proof/Machine/Distributor.lean ====
section
/-! DEFINITION. The distributor: job cards, waits, dealing of chunks and gangs, chunk entry and end (R138 to R151, R193 to
R195), time slices, pre-emption and gang switches (R146 to R148, R323), die fences and the master's election (R334,
R335). -/

namespace Sys2Proof.Machine

/-! ### Cards (R139) -/

/-- A little-endian field of a card's bytes. -/
def cardField (card : List Byte) (off n : Nat) : Nat := leValue ((card.drop off).take n)

def Job.entry (j : Job) : Word := .ofNat 64 (cardField j.card 0 8)
def Job.argBase (j : Job) : Word := .ofNat 64 (cardField j.card 8 8)
def Job.recordSize (j : Job) : Nat := cardField j.card 16 4
def Job.count (j : Job) : Nat := cardField j.card 20 4
def Job.minChunk (j : Job) : Nat := max 1 (cardField j.card 24 2)
def Job.gang (j : Job) : Bool := (cardField j.card 27 1).testBit 2
def Job.cls (j : Job) : Nat := cardField j.card 27 1 % 4
def Job.dieMask (j : Job) : Nat := cardField j.card 28 4 % 16
def Job.policy (j : Job) : Nat := cardField j.card 28 4 / 16 % 16
def Job.layoutCount (j : Job) : Nat := cardField j.card 28 4 / 256 % 16
def Job.completion (j : Job) : Word := .ofNat 64 (cardField j.card 48 8)

/-- The frames of the dies of a mask that are not fenced: 2,304 a die (R141, R334). -/
def State.maskFrames (s : State) (mask : Nat) : Nat :=
  2304 * ((List.range 4).filter fun d => mask.testBit d && !s.fenced.getLsbD d).length

/-- What a card's counter address gives at pop (R139): 0 or a counter; or the address of a cell on another device of the
pod, which is asked what it is; or neither. -/
inductive CounterCheck where
  | good
  | ask
  | bad
  deriving DecidableEq, Repr

/-- A card's counter address checked on this device. The spec gives the distributor no request that checks a cell on
another device: the model's asks with OQUERY, and holds the card until the answer (log entry 87). -/
def State.checkCounter (s : State) (asid : BitVec 16) (a : Word) : CounterCheck :=
  if a = 0 then .good
  else match s.agentTarget asid a with
    | .here k => if s.cellTag k = 1 then .good else .bad
    | .away => if devOf a < s.podDevices && regionOf (keyOf a) = 0 && a.toNat % 32 = 0 then .ask else .bad
    | .bad => .bad

/-- The rights of the distributor's accesses for a job. -/
def jobActor (asid : BitVec 16) (part : BitVec 6) : Actor := { asid := asid, part := part, user := true, core := none }

/-- Bytes that the distributor reads under a job's ASID. -/
def State.readFor (s : State) (asid : BitVec 16) (part : BitVec 6) (a : Word) (n : Nat) : Option (List Byte) :=
  match s.reachAll (jobActor asid part) a true false n with
  | .ok ks => some (s.gather ks)
  | .error _ => none

/-- A refinement consumer's cell: a type-6 cell of this device, and of a card that a refire pushed the cell that pushed it
(R193; log entry 87). -/
def State.versionCell (s : State) (asid : BitVec 16) (a : Word) (origin : Option (Nat × Nat)) : Bool :=
  match s.agentTarget asid a with
  | .here k => s.cellTag k == 6 && k % 64 == 0 && (match origin with | some o => o.1 == k | none => true)
  | _ => false

/-- The job that a popped card makes, or none where the card is refused (R139, R149, R150, R193); `origin` is the cell and
version whose refire pushed it. -/
def State.checkCard (s : State) (p l : Nat) (card : List Byte) (origin : Option (Nat × Nat)) : Option Job :=
  let part : BitVec 6 := .ofNat 6 p
  let asid := ((s.part p).levels.toList[l]?.getD {}).asid
  let g (o n : Nat) := cardField card o n
  let flags := g 27 1
  let table : Word := .ofNat 64 (g 56 8)
  let windows? : Option (List Word) :=
    if table = 0 then some (List.replicate 8 0)
    else (s.readFor asid part table 64).map fun bs => (List.range 8).map fun i => .ofNat 64 (leValue ((bs.drop (8 * i)).take 8))
  match windows? with
  | none => none
  | some ws =>
    let count := g 28 4 / 256 % 16
    let layouts? : Option (List Byte) :=
      if count = 0 then some []
      else if (ws[7]?.getD 0).toNat < 96 * count then none
      else s.readFor asid part (ws[6]?.getD 0) (96 * count)
    match layouts? with
    | none => none
    | some ls =>
      let j : Job :=
        { id := s.nextJob, part := part, level := .ofNat 6 l, asid := asid, card := card, windows := ws, layouts := ls
          eligible := min (s.part p).ceiling.toNat (s.maskFrames (g 28 4 % 16)), status := .active, origin := origin }
      let wait := if j.refines then CounterCheck.good else s.checkCounter asid (j.field 32)
      let completion := s.checkCounter asid j.completion
      let waitOk := if j.refines then g 42 6 = 0 && s.versionCell asid (j.field 32) origin else origin.isNone && wait != .bad
      if g 0 8 % 2 = 0 && g 26 1 = l && g 27 1 % 4 ≤ 2 && flags < 32 && !(j.gang && j.refines) &&
          j.dieMask ≠ 0 && j.policy ≤ 3 && j.layoutCount ≤ 8 && g 28 4 < 4096 && waitOk && completion != .bad &&
          !(j.gang && j.eligible < j.count) && !(j.gang && j.policy = 3 && 16 < j.count) && s.maskFrames j.dieMask ≠ 0
        then some { j with checks := ([wait, completion].filter (· == .ask)).length } else none

/-- What the distributor reads and translates to check a popped card: its window table, its layout records and its counters (R139,
R149, R150, R212, R232). -/
def State.cardRead (s : State) (p l : Nat) (card : List Byte) : State :=
  let part : BitVec 6 := .ofNat 6 p
  let asid := ((s.part p).levels.toList[l]?.getD {}).asid
  let table : Word := .ofNat 64 (cardField card 56 8)
  let count := cardField card 28 4 / 256 % 16
  let fetch (t : State) (a : Word) (n : Nat) : State := t.agentFetched controlNode (jobActor asid part) a n
  let s1 := if table = 0 then s else fetch s table 64
  let s2 := match if table = 0 then none else s.readFor asid part table 64 with
    | some bs =>
      let ws (i : Nat) : Nat := leValue ((bs.drop (8 * i)).take 8)
      if count = 0 || ws 7 < 96 * count then s1 else fetch s1 (.ofNat 64 (ws 6)) (96 * count)
    | none => s1
  ([32, 48].filterMap fun o => if cardField card o 8 = 0 then none else some (.ofNat 64 (cardField card o 8))).foldl
    (fun t a => t.agentLooked controlNode asid a) s2

/-- A completion add with error marks; nothing where the card names no counter (R144). -/
def State.completionAdd (s : State) (j : Job) (marks : Nat) : State :=
  if j.completion = 0 then s else s.send (.agentAdd j.completion j.asid 1 marks none (distributorEndpoint s.master.toNat) j.id)

/-- A refused card's completion add with its error mark, or a count of the partition's where it names no counter; what
names a cell on another device is sent the add, and counted where it refuses it (R139). -/
def State.refusedAdd (s : State) (p : Nat) (comp : Word) (asid : BitVec 16) : State :=
  let count : State := s.putPart p { s.part p with refused := (s.part p).refused + 1 }
  if comp = 0 then count
  else match s.checkCounter asid comp with
    | .good => s.send (.agentAdd comp asid 1 1 none (distributorEndpoint s.master.toNat) 0)
    | .ask => s.sendObject (.drain 0) comp 4 1 1 [] (.refusedAdd p)
    | .bad => count

/-- A refused card (R139). The version that a refire pushed, or that a card marked as a consumer's names, is acknowledged
to its cell (R195). -/
def State.refuseCard (s : State) (p l : Nat) (card : List Byte) (origin : Option (Nat × Nat)) : State :=
  let asid := ((s.part p).levels.toList[l]?.getD {}).asid
  let s1 := s.refusedAdd p (.ofNat 64 (cardField card 48 8)) asid
  match origin with
  | some (cell, version) => s1.send (.vcack (s1.cellAddr cell) none version)
  | none =>
    if (cardField card 27 1).testBit 4 then s1.send (.vcack (.ofNat 64 (cardField card 32 8)) (some asid) (cardField card 40 2))
    else s1

/-- A job gives up its place; of a recorded one the trace keeps the number, for what is still on its way for it (R370). -/
def State.dropJob (s : State) (id : Nat) : State :=
  let t : State := { s with jobs := s.jobs.filter (·.id != id) }
  if (s.recording || s.replayOn) && s.jobRecorded (some id) then
    { t with dev := { t.dev with tracedJobs := id :: t.dev.tracedJobs } }
  else t

/-- A job's entry replaced. -/
def State.putJob (s : State) (j : Job) : State := { s with jobs := s.jobs.map fun x => if x.id = j.id then j else x }

/-- A job moves to the tail of the jobs: jobs stand in the order in which they enter their sets (R142, R143). -/
def State.jobToTail (s : State) (j : Job) : State := { s with jobs := s.jobs.filter (·.id != j.id) ++ [j] }

/-- Records not yet dealt (R141). -/
def Job.left (j : Job) : Nat := if j.dropped then 0 else j.count - j.dealt

/-- Every record has been dealt, or those left have been dropped (R194). -/
def Job.allDealt (j : Job) : Bool := j.left = 0 && j.redeal.isEmpty

/-- The active set of a level (R142). -/
def State.activeSet (s : State) (p l : Nat) : List Job :=
  s.jobs.filter fun j => j.part.toNat == p && j.level.toNat == l && j.status == .active && !j.allDealt

/-- The jobs of a level's active set from the one whose turn is next, behind the one that dealt last (R142). -/
def State.inTurn (s : State) (p l : Nat) : List Job :=
  let last := (tblGet? s.turns (64 * p + l)).getD 0
  let set := s.activeSet p l
  (set.filter fun j => last < j.order) ++ set.filter fun j => j.order ≤ last

/-- Woken cards enter the tail of their level's active set, in the order of their wakes, while it has room (R143). -/
def State.admitWoken : Nat → State → Nat → Nat → State
  | 0, s, _, _ => s
  | n + 1, s, p, l =>
    match s.jobs.find? fun j => j.part.toNat == p && j.level.toNat == l && j.status == .woken with
    | some j =>
      if (s.activeSet p l).length < 8 then
        State.admitWoken n
          (({ s with stamps := s.stamps + 1 } : State).jobToTail { j with status := .active, order := s.stamps + 1 }) p l
      else s
    | none => s

/-- A job ends: the completion add, with a mark for each abandoned or re-dealt chunk; a refinement job that lost records
or chunks is superseded and adds nothing, and its version is acknowledged (R144, R194, R195, R334). -/
def State.endJob (s : State) (j : Job) : State :=
  let s1 := s.dropJob j.id
  let whole := !j.dropped && j.abandoned = 0
  let s2 := if j.refines then (if whole then s1.completionAdd j 0 else s1) else s1.completionAdd j (j.abandoned + j.marks)
  let s3 := if j.refines then s2.send (.vcack (j.field 32) (some j.asid) j.version) else s2
  s3.admitWoken 8 j.part.toNat j.level.toNat

/-- An active job ends once all of it is dealt and its chunks have ended (R144); one that no die is left for is refused
(R334). -/
def State.finishJob (s : State) (j : Job) : State :=
  if j.status != .active || j.running ≠ 0 then s
  else if j.allDealt then s.endJob j
  else if s.maskFrames j.dieMask = 0 then
    ((s.dropJob j.id).refuseCard j.part.toNat j.level.toNat j.card j.origin).admitWoken 8 j.part.toNat j.level.toNat
  else s

/-- A job whose wait is over takes its place: in the active set, or among the woken cards (R143). A job of no records
completes at once (R139). -/
def State.admitJob (s : State) (j : Job) : State :=
  if j.allDealt then s.endJob j
  else (s.jobToTail { j with status := .woken }).admitWoken 8 j.part.toNat j.level.toNat

/-- A card refused after its pop. -/
def State.refuseJob (s : State) (j : Job) : State :=
  (s.dropJob j.id).refuseCard j.part.toNat j.level.toNat j.card j.origin

/-- A card that passed its checks: the version check of a refinement consumer (R194), or the wait on its counter, which a
poisoned one cannot satisfy (R143, R327). -/
def State.startJob (s : State) (j : Job) : State :=
  let s1 := s.putJob { j with status := .waiting }
  if j.refines then
    match s.agentTarget j.asid (j.field 32) with
    | .here k =>
      if s.cellGet k 0 2 = j.version then s1.admitJob j
      else (s1.dropJob j.id).send (.vcack (j.field 32) (some j.asid) j.version)
    | _ => s1.refuseJob j
  else if j.field 32 = 0 then s1.admitJob j
  else
    let r : Req := { who := .card j.id, rk := .plain, addr := j.field 32 }
    match s.agentTarget j.asid (j.field 32) with
    | .here k =>
      if s.replayHolds r k then s1.send (.agentWait r.who r.addr j.asid (some (j.field 40)))
      else match (s1.carried r.who k 0 false).objStep r k (.cntWait (j.field 40) false) with
        | (s2, none) => s2
        | (s2, some a) => if a.code = 0 then s2.admitJob j else s2.refuseJob j
    | .away => s1.sendObject (.card j.id) (j.field 32) 6 (j.field 40).toNat 0 []
        (.object { who := .card j.id, addr := j.field 32, parks := true })
    | .bad => s1.refuseJob j

/-- A card that this device could check: it starts, once its counters on other devices have answered what they are (R139;
log entry 87). -/
def State.acceptCard (s : State) (j : Job) : State :=
  let s1 : State := { s with nextJob := s.nextJob + 1, jobs := s.jobs ++ [{ j with status := .checking }] }
  if j.checks = 0 then s1.startJob j
  else
    let ask (t : State) (a : Word) : State :=
      if t.checkCounter j.asid a = .ask then
        t.sendObject (.card j.id) a 2 0 0 [] (.object { who := .card j.id, kind := .query, addr := a })
      else t
    ask (if j.refines then s1 else ask s1 (j.field 32)) j.completion

/-- The refire push behind the slot that a job queue's next pop takes (R193). -/
def State.popOrigin (s : State) (key : Nat) : Option (Nat × Nat) :=
  tblGet? s.refired (s.slotKey key (s.cellGet key 4 4 % s.cellGet key 0 2))

/-- A pop of a level's job queue: the distributor is READY, the active set has room, no card of the level is being checked or is
woken and waits, fewer than 4,096 cards of the partition are parked, and no election is on (R139, R142, R143, R335, R364). -/
def State.popCard (s : State) (p l : Nat) : Option State :=
  let key := ctlKey (jobQueueOff p l)
  let mine (j : Job) : Bool := j.part.toNat == p
  if 64 ≤ p || 48 ≤ l || !(s.part p).live || !s.dev.ready.getLsbD 4 || s.electing || 8 ≤ (s.activeSet p l).length ||
      (s.jobs.any fun j => mine j && j.level.toNat == l && (j.status == .woken || j.status == .checking)) ||
      4096 ≤ (s.jobs.filter fun j => mine j && (j.status == .waiting || j.status == .checking)).length ||
      s.queueOcc key = 0 || s.replayHolds { who := .drain 0 } key then none
  else
    let origin := s.popOrigin key
    match (s.carried (.drain 0) key 0 false).objStep { who := .drain 0 } key (.pop true) with
    | (s1, some a) =>
      let s2 := (s1.carried (.drain 0) key 64 true).cardRead p l a.payload
      if a.code ≠ 0 then none
      else some (match s2.checkCard p l a.payload origin with
        | some j => s2.acceptCard j
        | none => s2.refuseCard p l a.payload origin)
    | _ => none

/-- JOB_CARD_POP. -/
def execJobCardPop (p l : Nat) (s : State) : Result := .next ((s.popCard p l).getD s)

/-- CARD_WAIT_WAKE: OK makes the card ready to enter its active set; any other status refuses it (R143, R163). To a card
that is being checked it brings the tag of a cell on another device, which must be a counter's. -/
def execCardWaitWake (n : Nat) (s : State) : Result :=
  s.onMsg n fun m => match m with
    | .cardWake id status _ => some fun s =>
      match s.jobAt id with
      | some j =>
        if j.status == .checking then
          let j1 := { j with checks := j.checks - 1, checkFailed := j.checkFailed || status != 1 }
          if 0 < j1.checks then s.putJob j1 else if j1.checkFailed then s.refuseJob j1 else s.startJob j1
        else if j.status != .waiting then s
        else if status = 0 then s.admitJob j
        else s.refuseJob j
      | none => s
    | _ => none

/-! ### Notices (R191, R194) -/

/-- A notice reaches every context that watches the cell, resident or saved (R191, R322), and a publish of a later version
drops what an active refinement job of an earlier one has not dealt; with no chunk running the job is superseded
(R194). The job has left its active set, which a woken card may enter (R143). -/
def State.noticed (s : State) (cell : Nat) (v : BitVec 16) (stop final : Bool) : State :=
  let a := s.cellAddr cell
  let s1 : State := { s with frames := s.frames.map fun e =>
    (e.1, { e.2 with watch := e.2.watch.notice a v stop final }) }
  let saved := (s1.ctxs.filter fun e => e.2.image.isSome && (e.2.state == .saved || e.2.state == .runnable)).map (·.1)
  let s2 := saved.foldl (fun t h => t.updateImage h fun f => { f with watch := f.watch.notice a v stop final }) s1
  let late := s2.jobs.filter fun j => j.refines && j.status == .active && !j.allDealt && j.version < v.toNat &&
    s2.agentTarget j.asid (j.field 32) == .here cell
  late.foldl (fun t j => let j1 := { j with dropped := true, redeal := [] }; ((t.putJob j1).finishJob j1).admitWoken 8 j.part.toNat j.level.toNat) s2

def execVcNotice (n : Nat) (s : State) : Result :=
  s.onMsg n fun m => match m with
    | .notice cell v stop final => some (·.noticed cell v stop final)
    | _ => none

/-! ### Frames (R140, R146) -/

/-- The frames of the cores of a list that exist. -/
def framesOn (cs : List Nat) : List Nat := (cs.filter coreExists).flatMap fun c => [4 * c, 4 * c + 1, 4 * c + 2, 4 * c + 3]

/-- Every frame of the device in ascending (die, y, x, frame). -/
def allFrames : List Nat := framesOn (List.range 4096)

/-- A frame that may be given work. -/
def State.freeFrame (s : State) (n : Nat) : Bool :=
  (s.frameAt n).status == .empty && !(s.quadAt (quadOf (n / 4))).resetting && !s.fenced.getLsbD (dieOf (n / 4))

/-- The frames that a partition holds (R146). -/
def State.held (s : State) (p : Nat) : Nat :=
  (s.frames.filter fun e => e.2.status != .empty && e.2.part.toNat == p).length

/-- The frames that hold a context of a job. -/
def State.framesOf (s : State) (id : Nat) : List Nat :=
  (s.frames.filter fun e => e.2.status != .empty && e.2.job == some id).map (·.1)

/-- Frames of a quad that hold a context of a job. -/
def State.inQuad (s : State) (id q : Nat) : Nat := ((s.framesOf id).filter fun n => quadOf (n / 4) == q).length

/-- The quad that a job of policy 3 is bound to: the one of its first chunk (R140). -/
def Job.inPlace (j : Job) (n : Nat) : Bool :=
  j.dieMask.testBit (dieOf (n / 4)) && (j.policy ≠ 3 || (match j.quad with | some q => quadOf (n / 4) == q | none => true))

/-- The frames among which a job has its place: those of its quad where it is bound to one, else all (R140). -/
def Job.frames (j : Job) : List Nat :=
  match j.quad with
  | some q => if j.policy = 3 then framesOn (coresOfQuad q) else allFrames
  | none => allFrames

/-- A job may hold a frame: its dies, and for policy 3 its one quad, where it holds at most 16 frames (R140). -/
def State.admits (s : State) (j : Job) (n : Nat) : Bool := j.inPlace n && (j.policy ≠ 3 || (s.framesOf j.id).length < 16)

/-- A gang that waits for frames (R145). -/
def Job.gangWaits (j : Job) : Bool := j.gang && j.status == .active && !j.allDealt

/-- A gang of the partition that waits for frames, at this level or above, holds a frame of its placement; among gangs of
one level the one popped first does (R145). -/
def State.heldForGang (s : State) (j : Job) (n : Nat) : Bool :=
  s.jobs.any fun g => g.id != j.id && g.gangWaits && g.part == j.part &&
    (if j.gang && g.level == j.level then decide (g.id < j.id) else j.level.toNat ≤ g.level.toNat) && s.admits g n

/-- A frame that an active job may be given once it is free, by a distributor in service (R364). -/
def State.mayTake (s : State) (j : Job) (n : Nat) : Bool :=
  s.dev.ready.getLsbD 4 && j.status == .active && !j.allDealt && s.admits j n && !s.heldForGang j n

/-- A chunk of the job could be dealt to a frame. -/
def State.dealable (s : State) (j : Job) (n : Nat) : Bool := !j.gang && s.mayTake j n

/-- Frames of a core in use. -/
def State.occupied (s : State) (core : Nat) : Nat :=
  ([0, 1, 2, 3].filter fun k => (s.frameAt (core * 4 + k)).status != .empty).length

/-- The frame of a list with the least value, the first among equals. -/
def leastBy (f : Nat → Nat) : List Nat → Option Nat
  | [] => none
  | x :: t => match leastBy f t with
    | some y => if f y < f x then some y else some x
    | none => some x

/-- The frame that a job's quad policy picks (R140). Among the frames that policy 1 or 2 leaves equal, and among quads that
hold equally many frames of the job, the spec names none: the model applies policy 0 (log entry 96). -/
def State.pickFrame (s : State) (j : Job) (ok : Nat → Bool) : Option Nat :=
  let free := j.frames.filter fun n => s.freeFrame n && ok n
  let any (l : List Nat) : Option Nat := leastBy (fun n => s.occupied (n / 4)) l
  let count (n : Nat) : Nat := s.inQuad j.id (quadOf (n / 4))
  let select (l : List Nat) : Option Nat := if l.isEmpty then any free else any l
  match j.policy with
  | 1 => select (free.filter fun n => count n = 0)
  | 2 =>
    let most := ((s.framesOf j.id).map count).foldl max 0
    if most = 0 then any free else select (free.filter fun n => count n = most)
  | _ => any free

/-- Frames in the quad of a frame. -/
def quadMates (l : List Nat) (n : Nat) : List Nat := l.filter fun m => quadOf (m / 4) == quadOf (n / 4)

/-- The free frames that a gang may be dealt to: for policy 3 those of quads that have enough (R140, R145). -/
def State.gangSpace (s : State) (j : Job) (ok : Nat → Bool) : List Nat :=
  let free := j.frames.filter fun n => s.freeFrame n && s.mayTake j n && ok n
  let fits := if j.policy = 3 then free.filter fun n => j.count ≤ (quadMates free n).length else free
  if fits.length < j.count then [] else fits

/-- A gang could be dealt, with a frame among its frames (R145, R146). -/
def State.gangReady (s : State) (j : Job) (n : Nat) : Bool :=
  j.gang && s.held j.part.toNat + j.count ≤ (s.part j.part.toNat).ceiling.toNat && s.mayTake j n &&
  (s.gangSpace j fun _ => true).contains n

/-- The contexts of a gang that are not dead, by handle. -/
def State.gangContexts (s : State) (id : Nat) : List Nat :=
  (s.ctxs.filter fun e => (e.2.state == .saved || e.2.state == .runnable) &&
    (match e.2.image with | some f => f.job == some id | none => false)).map (·.1)

/-- A frame that becomes free is held for a gang that waits for it rather than given to a saved context of a lower level of its
partition (R145); at the gang's own level the saved context comes first (R146; log entry 99). -/
def State.heldFromSaved (s : State) (h n : Nat) : Bool :=
  match (s.ctxAt h).image with
  | some f => s.jobs.any fun g => g.gangWaits && g.part == f.part && f.level.toNat < g.level.toNat && s.admits g n
  | none => false

/-- A frame of its own for each context of a gang, on that context's core, of those that are not held from it (R323). -/
def State.placesBy (s : State) (held : Nat → Nat → Bool) : List Nat → List Nat → Option (List (Nat × Nat))
  | [], _ => some []
  | h :: t, used =>
    match ([0, 1, 2, 3].map fun k => (s.ctxAt h).frame / 4 * 4 + k).find? fun n =>
        s.freeFrame n && !used.contains n && !held h n with
    | some n => (s.placesBy held t (n :: used)).map ((h, n) :: ·)
    | none => none

/-- The job of a saved context, where it is a gang. -/
def State.gangOf (s : State) (h : Nat) : Option Job :=
  match ((s.ctxAt h).image.bind (·.job)).bind s.jobAt with
  | some j => if j.gang then some j else none
  | none => none

/-- A saved context may take a frame that is not held from it, of a distributor in service (R364): one of a gang only where its whole
gang has frames and none of it is held (R322, R323; log entry 99). -/
def State.restoresBy (s : State) (held : Nat → Nat → Bool) (h n : Nat) : Bool :=
  s.dev.ready.getLsbD 4 && s.restorable h n && !held h n && (match s.gangOf h with
    | some j =>
      let hs := s.gangContexts j.id
      !(hs.any fun x => (s.ctxAt x).held) && (s.placesBy held hs []).isSome &&
        s.held j.part.toNat + hs.length ≤ (s.part j.part.toNat).ceiling.toNat
    | none => true)

/-- The distributor has switched a context out of a frame for work of its partition at its level or above, which is dealt there before
the context comes back (R147): a chunk, a gang, or another saved context that waits for the frame. -/
def State.slicedAway (s : State) (h n : Nat) : Bool :=
  (s.frameAt n).sliced == some h && (match (s.ctxAt h).image with
    | some f =>
      (s.jobs.any fun j => j.part == f.part && f.level.toNat ≤ j.level.toNat &&
        (s.dealable j n || (j.gangWaits && s.mayTake j n))) ||
      s.ctxs.any fun e => e.1 != h && s.restoresBy s.heldFromSaved e.1 n && (match e.2.image with
        | some g => g.part == f.part && f.level.toNat ≤ g.level.toNat && !((s.gangOf h).isSome && g.job == f.job)
        | none => false)
    | none => false)

/-- A saved context may take a frame now (R145, R147, R322, R323). -/
def State.heldFrom (s : State) (h n : Nat) : Bool := s.heldFromSaved h n || s.slicedAway h n
def State.mayRestore (s : State) (h n : Nat) : Bool := s.restoresBy s.heldFrom h n

/-- The frames that a gang's saved contexts may take now. -/
def State.gangPlaces (s : State) (hs : List Nat) : Option (List (Nat × Nat)) := s.placesBy s.heldFrom hs []

/-! ### What a free frame is given (R146) -/

/-- The (partition, level) pairs with ready work for a frame: dealable chunks and gangs, and runnable saved contexts. -/
def State.readyWork (s : State) (n : Nat) : List (Nat × Nat) :=
  ((s.jobs.filter fun j => s.dealable j n || s.gangReady j n).map fun j => (j.part.toNat, j.level.toNat)) ++
  ((s.ctxs.filter fun e => s.mayRestore e.1 n).filterMap fun e =>
    e.2.image.map fun f => (f.part.toNat, f.level.toNat))

/-- The better of two (partition, level) pairs under R146: the real-time band's highest level first; then the lowest
share of frames to weight, the lower partition, its highest level. Between partitions with real-time work of one level
the spec names no order: the model takes the lower number (log entry 97). -/
def State.better (s : State) (a b : Nat × Nat) : Bool :=
  let ra := 40 ≤ a.2
  let rb := 40 ≤ b.2
  if ra && rb then b.2 < a.2 || (b.2 = a.2 && a.1 < b.1)
  else if ra != rb then ra
  else
    let x := s.held a.1 * (s.part b.1).weight.toNat
    let y := s.held b.1 * (s.part a.1).weight.toNat
    if a.1 = b.1 then b.2 < a.2 else x < y || (x = y && a.1 < b.1)

/-- The best of some pairs whose partitions hold fewer frames than their ceilings. -/
def State.best (s : State) (l : List (Nat × Nat)) : Option (Nat × Nat) :=
  (l.filter fun w => s.held w.1 < (s.part w.1).ceiling.toNat).foldl
    (fun best w => match best with
      | none => some w
      | some b => if s.better w b then some w else some b) none

/-- The pair that R146 gives a free frame to. -/
def State.choice (s : State) (n : Nat) : Option (Nat × Nat) := s.best (s.readyWork n)

/-- The saved context of a pair that takes a frame before any chunk: the one made runnable first (R146). -/
def State.firstSaved (s : State) (n : Nat) (w : Nat × Nat) : Option Nat :=
  let cs := s.ctxs.filter fun e => s.mayRestore e.1 n && (match e.2.image with
    | some f => f.part.toNat == w.1 && f.level.toNat == w.2
    | none => false)
  leastBy (fun h => (s.ctxAt h).order) (cs.map (·.1))

/-! ### Dealing (R141, R145, R149) -/

/-- The lowest FREE handle; none while all are used (R320). -/
def State.freeHandle (s : State) : Option Nat :=
  let rec go (n h : Nat) : Option Nat :=
    match n with
    | 0 => none
    | n + 1 => if (s.ctxAt h).state == .free then some h else go n (h + 1)
  go (min (2 ^ s.dev.ctxM.toNat) (s.ctxs.length + 1)) 0

/-- What the record of a placement begins with: its kind and the job, numbered from the recording's or the replay's start. -/
def State.placeMark (s : State) (j : Job) : List Byte :=
  leBytes 1 0xFE ++ leBytes 3 (BitVec.ofInt 24 ((j.id : Int) - s.dev.traceJob)).toNat

/-- The trace's next placement of a job: its frame, first record, count and rank (R371). -/
def State.tracedPlace (s : State) (j : Job) : Option (Nat × Nat × Nat × Nat) :=
  (s.nextTraced (s.placeMark j)).map fun b =>
    let g (o n : Nat) := leValue ((b.drop o).take n)
    (g 4 2, g 6 4, g 10 4, g 14 2)

/-- A recorded job's placement logged while TRCTL[0] is 1, or taken off the trace in a replay, which it stops where the trace lacks
it (R370, R371). -/
def State.tracePlace (s : State) (j : Job) (n first records rank : Nat) : State :=
  if !j.recorded then s
  else if s.replayOn then
    match s.nextTraced (s.placeMark j) with
    | some b => s.useTraced b
    | none => s.diverge
  else if s.recording then
    s.trace (s.placeMark j ++ leBytes 2 n ++ leBytes 4 first ++ leBytes 4 records ++ leBytes 2 rank)
  else s

/-- The frame that a replay gives to the next chunk of a recorded job; none where the job is free to be placed (R371). -/
def State.replayFrame (s : State) (j : Job) : Option Nat :=
  if s.replayOn && j.recorded then (s.tracedPlace j).map (·.1) else none

/-- A frame begins to load a chunk of a job (R149, R151): a handle becomes RESIDENT. -/
def State.loadChunk (s : State) (j : Job) (n first records rank : Nat) (h : Nat) : State :=
  let p := s.part j.part.toNat
  let f : Frame :=
    { status := .loading, pc := j.entry, handle := .ofNat 20 h, part := j.part, level := j.level, asid := j.asid,
      cls := .ofNat 2 j.cls, rank := .ofNat 32 rank, job := some j.id, first := first, records := records,
      layoutJob := (s.frameAt n).layoutJob, hndbase := p.hndbase, hnddata := p.hnddata,
      quantum := (p.levels.toList[j.level.toNat]?.getD {}).quantum, stamp := s.stamps }
  ((({ s with stamps := s.stamps + 1 } : State).putFrame n f).putCtx h { state := .resident, frame := n }).tracePlace j n first
    records rank

/-- The size of the next chunk (R141). -/
def Job.chunkSize (j : Job) : Nat :=
  let r := j.left
  min r (max j.minChunk ((r + 2 * j.eligible - 1) / (2 * max 1 j.eligible)))

/-- The quad of a job of policy 3 fixed by its first frame (R140). -/
def Job.settle (j : Job) (n : Nat) : Job :=
  { j with quad := if j.policy = 3 && j.quad.isNone then some (quadOf (n / 4)) else j.quad }

/-- A frame that R146 gives to a chunk of a level: no saved context of that level takes it first. -/
def State.forChunk (s : State) (p l n : Nat) : Bool := s.choice n == some (p, l) && (s.firstSaved n (p, l)).isNone

/-- The next chunk of a job: its first record and count, with what is then left to deal again and the records dealt (R141, R334); in
a replay of a recorded job as its trace gives it (R371). -/
def State.nextChunk (s : State) (j : Job) : Nat × Nat × List (Nat × Nat) × Nat :=
  match j.redeal with
  | (a, b) :: t => (a, b, t, j.dealt)
  | [] =>
    let k := match s.replayFrame j, s.tracedPlace j with
      | some _, some (_, _, k, _) => min j.left k
      | _, _ => j.chunkSize
    (j.dealt, k, [], j.dealt + k)

/-- A level's next active job in turn that has a frame deals one chunk to the frame of its policy, among those that R146 gives to
the level (R140 to R142). -/
def State.dealTurn (s : State) (p l : Nat) : Option State :=
  let next (j : Job) : Option (Job × Nat) :=
    let may (n : Nat) : Bool := s.dealable j n && s.forChunk p l n
    if j.gang then none
    else match s.replayFrame j with
      | some n => if may n then some (j, n) else none
      | none => (s.pickFrame j may).map fun n => (j, n)
  if s.electing || !s.dev.ready.getLsbD 4 then none
  else match (s.inTurn p l).findSome? next, s.freeHandle with
    | some (j, n), some h =>
      let (first, k, rest, dealt) := s.nextChunk j
      let j1 := { j.settle n with redeal := rest, dealt := dealt, running := j.running + 1 }
      let t := s.loadChunk j n first k 0 h
      some ((({ t with turns := tblPut t.turns (64 * p + l) j.order } : State).putJob j1).admitWoken 8 p l)
    | _, _ => none

/-- DEAL_CHUNK. -/
def execDealChunk (p l : Nat) (s : State) : Result := .next ((s.dealTurn p l).getD s)

/-- The frames for a gang, chosen one by one by its policy out of those it may be dealt to (R140, R145). -/
def State.gangFrames (s : State) (j : Job) (space : List Nat) : Nat → List Nat → Option (List Nat)
  | 0, acc => some acc
  | n + 1, acc =>
    let t := acc.foldl (fun t f => t.putFrame f { status := .loading, part := j.part, job := some j.id }) s
    let mates (f : Nat) : Bool := j.policy ≠ 3 || (match acc with | x :: _ => quadOf (f / 4) == quadOf (x / 4) | [] => true)
    match t.pickFrame j fun f => space.contains f && mates f with
    | some f => s.gangFrames j space n (f :: acc)
    | none => none

/-- Numbers in ascending order. -/
def sortNat (l : List Nat) : List Nat :=
  let rec insert (x : Nat) : List Nat → List Nat
    | [] => [x]
    | y :: t => if x ≤ y then x :: y :: t else y :: insert x t
  l.foldl (fun acc x => insert x acc) []

/-- A gang dealt to frames: rank r to the r-th in ascending order; none where handles run out (R145, R320). -/
def State.dealGang (s : State) (j : Job) (fs : List Nat) : Option State :=
  let ns := sortNat fs
  let j1 := { (match ns with | n :: _ => j.settle n | [] => j) with
    dealt := j.count, running := j.count, gangFrames := ns, rankCores := ns.map (· / 4) }
  ((ns.zip (List.range ns.length)).foldl
    (fun (t : Option State) e => t.bind fun u => (u.freeHandle).map fun h => u.loadChunk j e.1 e.2 1 e.2 h)
    (some s)).map fun t => (t.putJob j1).admitWoken 8 j.part.toNat j.level.toNat

/-- The frames that a replay gives to a recorded gang (R371). -/
def State.replayGang (s : State) (j : Job) : List Nat :=
  ((s.dev.traceRecords.filter fun b => b.take 4 == s.placeMark j).take j.count).map fun b => leValue ((b.drop 4).take 2)

/-- The first gang of a level for which G frames are free at once, below its partition's ceiling, among those that R146 gives to
the level, is dealt (R145, R146). -/
def State.gangTurn (s : State) (p l : Nat) : Option State :=
  let next (j : Job) : Option State :=
    if !j.gang || (s.part p).ceiling.toNat < s.held p + j.count then none
    else match s.gangSpace j fun n => s.forChunk p l n with
      | [] => none
      | space =>
        if (s.replayFrame j).isSome && (s.replayGang j).length = j.count then
          (if (s.replayGang j).all space.contains then s.dealGang j (s.replayGang j) else none)
        else (s.gangFrames j space j.count []).bind (s.dealGang j)
  if s.electing || !s.dev.ready.getLsbD 4 then none else (s.activeSet p l).findSome? next

/-- GANG_DEAL. -/
def execGangDeal (p l : Nat) (s : State) : Result := .next ((s.gangTurn p l).getD s)

/-- The registers at chunk entry (R10, R13, R14, R149, R191). -/
def State.entryFrame (s : State) (n : Nat) (f : Frame) (j : Job) : Frame :=
  let k := n % 4
  let w (i : Nat) : Word := j.windows[i]?.getD 0
  let at_ : Word := j.argBase + .ofNat 64 (f.first * j.recordSize)
  let regs : Vector Word 32 := ((((((Vector.replicate 32 (0 : Word)).set 2 (.ofNat 64 (0x60000 - k * 0x4000))).set 3
    (.ofNat 64 f.first)).set 4 (.ofNat 64 f.records)).set 5 at_).set 6 (.ofNat 64 f.rank.toNat)).set 7
    (.ofNat 64 (if j.refines then j.version else 0))
  let watch : Watch :=
    if !j.refines then {}
    else match s.agentTarget j.asid (j.field 32) with
      | .here c =>
        let fl := s.cellGet c 2 1
        { cell := some (s.cellAddr c), ver := .ofNat 16 j.version, latest := .ofNat 16 (s.cellGet c 0 2),
          stop := fl.testBit 1, final := fl.testBit 0 }
      | _ => {}
  { f with
    status := .ready, s := regs, watch := watch
    pwb := #v[w 0, w 2, w 4, w 6]
    pws := #v[w 1, w 3, w 5, w 7]
    layoutJob := if j.layoutCount = 0 then none else some j.id }

/-- CHUNK_LOAD_COMPLETE: entry state, windows and layout records are written, the L1 is invalidated, the frame is READY
(R149 to R151, R251). A frame that runs further chunks of its job keeps its records (R150). -/
def execChunkLoadComplete (n : Nat) (s : State) : Result :=
  let f := s.frameAt n
  .next (if f.status != .loading then s
    else match f.job.bind s.jobAt with
      | none => s
      | some j =>
        let s1 := s.putFrame n (s.entryFrame n f j)
        let s2 := s1.putCore (n / 4) (s1.coreAt (n / 4)).l1Clear
        if j.layoutCount = 0 || f.layoutJob = some j.id then s2 else s2.homeWrite (recordArea n) j.layouts)

/-- A chunk that has ended is counted; the job may end with it (R91, R144, R194, R334). -/
def State.countChunk (s : State) (id : Nat) (abandoned : Bool) : State :=
  match s.jobAt id with
  | none => s
  | some j =>
    let j1 := { j with running := j.running - 1, abandoned := j.abandoned + abandoned.toNat }
    (s.putJob j1).finishJob j1

/-- CHUNK_END: the distributor counts an ended chunk. -/
def execChunkEnd (n : Nat) (s : State) : Result :=
  s.onMsg n fun m => match m with
    | .chunkEnd id _ _ abandoned => some (·.countChunk id abandoned)
    | _ => none

/-! ### Time slices, pre-emption, restore (R146 to R148, R322, R323) -/

/-- Work of a partition at a level or above that could take a frame of this core, or a gang that waits for it (R147). -/
def State.waitingFor (s : State) (n p l : Nat) : Bool :=
  let t := s.putFrame n {}
  ((t.readyWork n).any fun w => w.1 = p && l ≤ w.2) ||
  (t.jobs.any fun j => j.gangWaits && j.part.toNat == p && l ≤ j.level.toNat && t.mayTake j n)

/-- The job of a frame's context is a gang. -/
def State.inGang (s : State) (n : Nat) : Bool :=
  match (s.frameAt n).job.bind s.jobAt with | some j => j.gang | none => false

/-- QUANT_EXPIRY: the context is stopped when its partition has work for the frame, which is then dealt there (`State.slicedAway`), else
QUANT is reloaded (R147). A
gang's contexts are switched together, by GANG_SWITCH (R145, R323). -/
def execQuantExpiry (n : Nat) (s : State) : Result :=
  let f := s.frameAt n
  .next (if f.status == .empty || f.status == .loading || f.quantum = 0 || f.stopping.isSome || s.inGang n then s
    else if s.waitingFor n f.part.toNat f.level.toNat then s.stopFrame n 0x18
    else s)

/-- The quad in which a gang of policy 3 has the most frames that are free or about to be. -/
def State.gangQuad (s : State) (j : Job) : Option Nat :=
  let coming := j.frames.filter fun n => (s.freeFrame n || (s.frameAt n).stopping.isSome) && s.mayTake j n
  leastBy (fun q => 16 - (coming.filter fun n => quadOf (n / 4) == q).length)
    ((j.frames.filter fun n => s.mayTake j n).map fun n => quadOf (n / 4))

/-- Work of the real-time band that waits for frames: its partition and level, the frames it may take and how many of them it
needs, and how many frames its partition needs for it. -/
structure RtWork where
  part : Nat
  level : Nat
  ok : Nat → Bool
  need : Nat
  whole : Nat

/-- A gang with saved contexts, some of them runnable and none held: its contexts core by core, for each needs a frame of its own
core (R148, R322, R323). -/
def State.gangWork (s : State) (j : Job) : List RtWork :=
  let hs := s.gangContexts j.id
  let cores := (hs.map fun h => (s.ctxAt h).frame / 4).eraseDups
  if (hs.any fun h => (s.ctxAt h).state == .runnable) && !hs.any fun h => (s.ctxAt h).held then
    cores.map fun c =>
      { part := j.part.toNat, level := j.level.toNat, ok := fun n => n / 4 == c
        need := (hs.filter fun h => (s.ctxAt h).frame / 4 == c).length, whole := hs.length : RtWork }
  else []

/-- The real-time work (R148): chunks, gangs, and runnable saved contexts. -/
def State.rtWork (s : State) : List RtWork :=
  let rt := s.jobs.filter fun j => j.status == .active && 40 ≤ j.level.toNat
  let chunks := (rt.filter fun j => !j.allDealt).map fun j =>
    let home := if j.gang && j.policy = 3 then s.gangQuad j else none
    let n := if j.gang then j.count else 1
    { part := j.part.toNat, level := j.level.toNat, need := n, whole := n
      ok := fun n => s.mayTake j n && (match home with | some q => quadOf (n / 4) == q | none => true) : RtWork }
  let saved := (s.ctxs.filter fun e => e.2.state == .runnable && !e.2.held && (s.gangOf e.1).isNone).filterMap fun e =>
    match e.2.image with
    | some f =>
      if 40 ≤ f.level.toNat then
        some { part := f.part.toNat, level := f.level.toNat, ok := fun n => n / 4 == e.2.frame / 4, need := 1, whole := 1 : RtWork }
      else none
    | none => none
  chunks ++ saved ++ (rt.filter fun j => j.gang && j.allDealt).flatMap s.gangWork

/-- The work still lacks frames: those of its placement that are free or already stopping, as far as its partition's ceiling lets
it take them, are too few, or the ceiling leaves too few in all (R146, R148). -/
def State.lacking (s : State) (w : RtWork) : Bool :=
  let stopping (n : Nat) : Bool := (s.frameAt n).status != .empty && (s.frameAt n).stopping.isSome
  let own := ((s.frames.map (·.1)).filter fun n => stopping n && (s.frameAt n).part.toNat == w.part).length
  let room := (s.part w.part).ceiling.toNat + own - s.held w.part
  (allFrames.filter fun n => w.ok n && (s.freeFrame n || stopping n)).length < w.need || room < w.whole

/-- A frame may be taken for real-time work (R148): it runs a lower level of the work's partition; or a lower level of a
partition beyond its guarantee, where the work's own partition is below its ceiling (R146). -/
def State.takeable (s : State) (p l n : Nat) : Bool :=
  let f := s.frameAt n
  f.status != .empty && f.stopping.isNone && f.level.toNat < l &&
  (f.part.toNat == p ||
   ((s.part f.part.toNat).guarantee.toNat < s.held f.part.toNat && s.held p < (s.part p).ceiling.toNat))

/-- The victim of R148: the lowest level, then the latest dispatched, then the lowest frame. -/
def State.victim (s : State) (p l : Nat) (ok : Nat → Bool) : Option Nat :=
  let ns := (s.frames.map (·.1)).filter fun n => ok n && s.takeable p l n
  leastBy (fun n => (s.frameAt n).level.toNat * (s.stamps + 1) + (s.stamps - (s.frameAt n).stamp)) ns

/-- A frame is the victim of some real-time work that lacks frames. -/
def State.isVictim (s : State) (n : Nat) : Bool :=
  s.rtWork.any fun w => s.lacking w && s.victim w.part w.level w.ok == some n

/-- SWITCH_OUT: a stopped frame that has drained is saved; a real-time victim is stopped first (R148, R319). -/
def execSwitchOut (n : Nat) (s : State) : Result :=
  let f := s.frameAt n
  .next (if f.stopping.isSome then (if f.savable && !(s.inGang n && f.stopFor.isEmpty) then s.saveFrame n else s)
    else if s.isVictim n && !s.inGang n then
      let t := s.stopFrame n 0x18
      if (t.frameAt n).savable then t.saveFrame n else t
    else s)

/-- A pair of work is the best for a frame, be it ready there or not. -/
def State.yields (s : State) (n : Nat) (w : Nat × Nat) : Bool := s.best (w :: s.readyWork n) == some w

/-- The saved context that R146 gives the frame to, the first made runnable of its pair; a gang only as a whole, below its
partition's ceiling and where R146 gives it each of its frames, without the contexts of it that are dead (R146, R322, R323). -/
def State.restoreTurn (s : State) (h n : Nat) : Option State :=
  match (s.ctxAt h).image with
  | none => none
  | some f =>
    let w := (f.part.toNat, f.level.toNat)
    if s.electing || !s.mayRestore h n || s.choice n ≠ some w then none
    else match s.gangOf h with
      | some j =>
        let first (n : Nat) : Bool := match s.firstSaved n w with
          | some x => (s.gangOf x).map (·.id) == some j.id
          | none => true
        match s.gangPlaces (s.gangContexts j.id) with
        | some ps =>
          if ps.all fun e => s.yields e.2 w && first e.2 then
            some ((ps.foldl (fun t e => t.restore e.1 e.2) s).putJob { j with gangFrames := ps.map (·.2) })
          else none
        | none => none
      | none => if s.firstSaved n w = some h then some (s.restore h n) else none

/-- CONTEXT_RESTORE. -/
def execContextRestore (h n : Nat) (s : State) : Result := .next ((s.restoreTurn h n).getD s)

/-- The drain waits of a gang: one internal waiter on each distinct nonzero DRAINC whose counter is not 0 (R323). One that
finds no room is woken at once (R163). -/
def State.parkDrains (s : State) (j : Job) : State :=
  let as := ((j.gangFrames.map fun n => (s.frameAt n).drainc).filter (· != 0)).eraseDups
  as.foldl (fun t0 a =>
    let t := t0.agentLooked controlNode j.asid a
    match t.agentTarget j.asid a with
    | .here k =>
      let r : Req := { who := .drain j.id, addr := a }
      if t.cellTag k ≠ 1 then t
      else if t.replayHolds r k then t.send (.agentWait r.who a j.asid none)
      else ((t.carried r.who k 0 false).objStep r k .cntZero).1
    | .away => t.sendObject (.drain j.id) a 0x32 0 0 [] (.object { who := .drain j.id, addr := a, parks := true })
    | .bad => t) s

/-- A drain wait of a gang is held by a replay (R371). -/
def State.heldDrain (s : State) (id : Nat) : Bool :=
  s.msgs.any fun m => match m with | .agentWait who _ _ none => who == .drain id | _ => false

/-- A drain wait of a gang is still parked, here or on another device. -/
def State.draining (s : State) (id : Nat) : Bool :=
  (s.waits.any fun w => w.who == .drain id && w.kind == .counterZero) || s.heldDrain id ||
  (s.remotes.any fun r => match r.what with | .object q => q.who == .drain id | _ => false)

/-- Every context of a gang saved, its drain waits taken out (R323). -/
def State.saveGang (s : State) (j : Job) : State :=
  let s1 := (s.waits.filter fun w => w.who == .drain j.id && w.kind == .counterZero).foldl (fun t w => t.unpark w) s
  let s1 : State := { s1 with msgs := s1.msgs.filter fun m => match m with
    | .agentWait who _ _ none => who != .drain j.id
    | _ => true }
  (j.gangFrames.foldl (fun t n => if (t.frameAt n).job = some j.id then t.saveFrame n else t) s1).putJob
    { j with drain := none, drainRt := false }

/-- GANG_SWITCH: every context of the gang is stopped; once all have drained, the drain counters are waited on; once
they stand at 0, or that wait has been given up, all are saved (R252, R323). It starts where work waits for a frame of
the gang (R147, R148). -/
def execGangSwitch (id : Nat) (s : State) : Result :=
  .next (match s.jobAt id with
    | none => s
    | some j =>
      let ns := j.gangFrames.filter fun n => (s.frameAt n).job = some id
      let ready := ns.all fun n => (s.frameAt n).savable
      match j.drain with
      | none =>
        let rt := ns.any s.isVictim
        let slice := ns.any fun n => (s.frameAt n).quantum ≠ 0 && s.waitingFor n j.part.toNat j.level.toNat
        if !j.gang || ns.isEmpty || !(rt || slice) then s
        else (ns.foldl (fun t n => t.stopFrame n 0x18) s).putJob { j with drain := some 0, drainRt := rt }
      | some 0 => if ready then (s.parkDrains j).putJob { j with drain := some 1 } else s
      | some 1 => if ready && !s.draining id then s.saveGang j else s
      | some _ => if ready then s.saveGang j else s)

/-- GANG_DRAIN_TIMEOUT: for a real-time pre-emption the wait ends after 800 cycles (R323): the gang is saved, each context
once its loads are complete and URS is 0, as R252 requires of every save (log entry 42). -/
def execGangDrainTimeout (id : Nat) (s : State) : Result :=
  .next (match s.jobAt id with
    | some j =>
      if j.drain.isNone || !j.drainRt then s
      else if j.gangFrames.all fun n => (s.frameAt n).job ≠ some id || (s.frameAt n).savable then s.saveGang j
      else s.putJob { j with drain := some 2 }
    | none => s)

/-! ### Die fence and election (R334, R335) -/

/-- A job's chunks that ran on a fenced die are disposed of by the job's kind (R334). -/
def State.disposeChunk (s : State) (id first records : Nat) : State :=
  match s.jobAt id with
  | none => s
  | some j =>
    if j.gang then s
    else if j.refines then s.countChunk id true
    else s.putJob { j with redeal := j.redeal ++ [(first, records)], running := j.running - 1, marks := j.marks + 1 }

/-- A gang that lost a die: its contexts on every die become DEAD and the job completes at once with the mark. -/
def State.endGang (s : State) (id : Nat) : State :=
  match s.jobAt id with
  | none => s
  | some j =>
    let res := s.framesOf id
    let saved := s.gangContexts id |>.filter fun h => (s.ctxAt h).state != .dead
    let s1 := res.foldl (fun t n => (t.putFrame n { t.frameAt n with job := none }).killFrame n) s
    let s2 := saved.foldl (fun t h => match (t.ctxAt h).image with
      | some f => t.killContext h { f with job := none } ((t.ctxAt h).frame / 4)
      | none => t) s1
    (s2.dropJob id).completionAdd j 1

/-- The fence of a die (R334). -/
def State.fenceDie (s : State) (d : Nat) : State :=
  let p (c : Nat) : Bool := dieOf c = d
  let (res, saved) := s.contextsOf p
  let chunks := (res.map s.frameAt ++ saved.filterMap fun h => (s.ctxAt h).image).filterMap fun f =>
    f.job.map fun j => (j, f.first, f.records)
  let free (s : State) : State :=
    { s with frames := s.frames.map (fun e => if p (e.1 / 4) then (e.1, { e.2 with job := none }) else e),
             ctxs := s.ctxs.map fun e =>
               if saved.contains e.1 then (e.1, { e.2 with image := e.2.image.map fun f => { f with job := none } }) else e }
  let s1 := ((free s).killCores p).losePosted p
  let cores := (s1.cores.filter fun e => p e.1).map (·.1)
  let s2 := cores.foldl (fun t c => t.stopBlocks c) s1
  let s3 := s2.clearRange (localKey (d * 1024) 0) (localKey ((d + 1) * 1024) 0)
  let s4 := cores.foldl (fun t c => t.clearCore c) s3
  let quads := (List.range 144).map fun i => d * 1024 + i / 12 * 64 + i % 12 * 2
  let s5 := quads.foldl (fun t q => t.machineCheck 3 0 d 0 (t.coreWord q) 0) s4
  let s6 : State := { s5 with fenced := s5.fenced ||| (1 <<< d), electing := s5.electing || s5.master.toNat == d }
  let s7 := (chunks.filter fun e => match s.jobAt e.1 with | some j => j.gang | none => false).foldl
    (fun t e => t.endGang e.1) s6
  let s8 := chunks.foldl (fun t e => t.disposeChunk e.1 e.2.1 e.2.2) s7
  let s9 : State := { s8 with jobs := s8.jobs.map fun j =>
    { j with quad := j.quad.filter fun q => !(dieOf q == d) } }
  (s9.jobs.filter fun j => s9.maskFrames j.dieMask = 0).foldl (fun t j =>
    if j.status == .active then t.finishJob j else t.refuseJob j) s9

/-- The device fences itself: every fabric link failed, a record of kind 7, and it stops (R334). -/
def State.fenceDevice (s : State) : State :=
  { s.machineCheck 7 0 0 0 0 0 with ports := s.ports.map fun x => { x with failed := true, up := false }, stopped := true }

/-- Die 0 to 3 is fenced; for 4 the failure lies in what all dies share, and the device fences itself (R334). -/
def State.fenceUnit (s : State) (d : Nat) : State :=
  if d < 4 then (if s.fenced.getLsbD d then s else s.fenceDie d) else if d = 4 then s.fenceDevice else s

/-- DIE_FENCE. -/
def execDieFence (d : Nat) (s : State) : Result := .next (s.fenceUnit d)

/-- MASTER_ELECTION: the next lowest-numbered unfenced die's distributor becomes master (R335). -/
def execMasterElection (s : State) : Result :=
  .next (match (List.range 4).find? fun d => !s.fenced.getLsbD d with
    | some d => if s.electing then { s with master := .ofNat 2 d, electing := false } else s
    | none => s)

end Sys2Proof.Machine
end

