-- ==== Sys2Proof/Machine/Layout.lean ====
section
/-! DEFINITION. Layout records (R265, R266, R270): their fields, the order in which they are checked, and the place of an
element. A record is the natural number of its 96 bytes. -/

namespace Sys2Proof.Machine

/-- The width in bits of an element by its format code (R55). -/
def codeWidth : Nat → Nat
  | 0 | 1 | 9 => 8
  | 2 | 3 | 6 | 7 => 16
  | 4 | 5 | 8 => 32
  | 10 => 6
  | _ => 64

def recBase (r : Nat) : Nat := bitsOf r 63 0
def recFmt (r : Nat) : Nat := bitsOf r 67 64
/-- n, the rank. -/
def recRank (r : Nat) : Nat := bitsOf r 70 68 + 1
def recIlv (r : Nat) : Nat := bitsOf r 75 72
def recFill (r : Nat) : Nat := bitsOf r 95 80
def recExt (r i : Nat) : Nat := bitsOf r (119 + 24 * i) (96 + 24 * i)
def recStr (r i : Nat) : Int := (BitVec.ofNat 32 (bitsOf r (247 + 32 * i) (216 + 32 * i))).toInt
def recDist (r i : Nat) : Nat := bitsOf r (383 + 8 * i) (376 + 8 * i)
def recGrid (r i : Nat) : Nat := bitsOf r (423 + 8 * i) (416 + 8 * i)
def recRank0 (r : Nat) : Nat := bitsOf r 471 456
def recOrder (r : Nat) : Nat := bitsOf r 475 472

/-- The product of the grid. -/
def recCores (r : Nat) : Nat := ((List.range 5).map (recGrid r)).foldl (· * ·) 1

/-- The lowest bit of the first field that breaks R266, in ascending bit order. -/
def recFault (r : Nat) : Option Nat :=
  let n := recRank r
  let field (bad : Bool) (bit : Nat) : Option Nat := if bad then some bit else none
  let ext := (List.range 5).map fun i => field (if i < n then recExt r i = 0 else recExt r i ≠ 1) (96 + 24 * i)
  let dist := (List.range 5).map fun i =>
    field ((n ≤ i && recDist r i ≠ 0) || (recDist r i / 64 ≠ 3 && recDist r i % 64 ≠ 0)) (376 + 8 * i)
  let grid := (List.range 5).map fun i =>
    field (recGrid r i = 0 || (n ≤ i && recGrid r i ≠ 1) || (i = 0 && 65536 < recCores r)) (416 + 8 * i)
  ([field (14 ≤ recFmt r) 64, field (5 < n) 68, field (bitsOf r 71 71 ≠ 0) 71, field (6 < recIlv r) 72,
    field (bitsOf r 79 76 ≠ 0) 76] ++ ext ++ dist ++ grid ++
   [field (1 < recOrder r) 472, field (bitsOf r 511 476 ≠ 0) 476]).findSome? id

/-- The owner and local coordinate of one dimension (R265). -/
def recSplit (r i c : Nat) : Nat × Nat :=
  let g := recGrid r i
  let b := 2 ^ (recDist r i % 64)
  match recDist r i / 64 with
  | 0 => (0, c)
  | 1 => let sz := (recExt r i + g - 1) / g; (c / sz, c % sz)
  | 2 => (c % g, c / g)
  | _ => (c / b % g, c / (b * g) * b + c % b)

/-- A coordinate lies outside its extent. -/
def recOutside (r : Nat) (xs : List Int) : Bool :=
  (List.range (recRank r)).any fun i => let x := xs[i]?.getD 0; x < 0 || (recExt r i : Int) ≤ x

/-- Where an element within the extents is: its owner's rank, its byte offset, and its place in a t6 group (R265). -/
def recPlace (r : Nat) (xs : List Nat) : Nat × (Int × Nat) :=
  let n := recRank r
  let sp := (List.range n).map fun i => recSplit r i (xs[i]?.getD 0)
  let stride (i : Nat) : Nat :=
    if recOrder r = 0 then ((List.range i).map (recGrid r)).foldl (· * ·) 1
    else (((List.range n).drop (i + 1)).map (recGrid r)).foldl (· * ·) 1
  let rank := recRank0 r + ((List.range n).map fun i => ((sp[i]?.getD (0, 0)).1 * stride i)).foldl (· + ·) 0
  let e : Int := ((List.range n).map fun i => (((sp[i]?.getD (0, 0)).2 : Nat) : Int) * recStr r i).foldl (· + ·) 0
  let (o, pos) : Int × Nat :=
    if recFmt r = 10 then (3 * (e / 4), (e % 4).toNat) else (e * ((codeWidth (recFmt r) / 8 : Nat) : Int), 0)
  let k := recIlv r
  let w : Word := .ofInt 64 o
  let o1 : Int := if k = 0 then o else (w ^^^ (((w >>> (k + 8)) &&& 0xF) <<< 5)).toInt
  (rank, o1, pos)

/-- TRAPVAL of a LAYOUT trap (R266, R276). -/
def layoutVal (addr bit : Nat) : Word := .ofNat 64 (addr % 2 ^ 19 + bit * 2 ^ 32)

/-- GADDR: the record is read and checked, then the element of V[b]'s coordinates located (R265, R266). -/
def execGaddr (d a : SReg) (b : VReg) (s : State) : Result :=
  let l := (s.rs a).toNat
  .next (match s.padFault l 96 32 with
    | some (c, det) => s.trap c (s.rs a) det
    | none =>
      let r := leValue (s.localRead l 96)
      match recFault r with
      | some bit => s.trap 9 (layoutVal l bit)
      | none =>
        let v := (s.fr.getV b).toList
        let c := (List.range (recRank r)).map fun i => leValue ((v.drop (4 * i)).take 4)
        let two (x y : Word) : State := (s.putFr ((s.fr.setS d x).setS (d + 1) y)).retire
        if recOutside r (c.map Int.ofNat) then two (-1) 0
        else
          let (rank, o, pos) := recPlace r c
          two (.ofNat 64 (rank + pos * 2 ^ 32)) (.ofNat 64 (recBase r) + .ofInt 64 o))

/-- MKGA: a region-1 address, or an address that no access accepts (R267). -/
def execMkga (d a b : SReg) (s : State) : Result :=
  let w := (s.rs a).toNat
  let o := (s.rs b).toNat
  let dev := bitsOf w 35 18
  let bad := bitsOf w 7 5 ≠ 0 || bitsOf w 15 13 ≠ 0 || bitsOf w 63 36 ≠ 0 || 2 ^ 19 ≤ o || 23 < bitsOf w 4 0 ||
    23 < bitsOf w 12 8 || (131072 ≤ dev && dev ≤ 0x3FFFE)
  .next (s.done1 d (if bad then -1
    else .ofNat 64 (dev * 2 ^ 46 + 2 ^ 42 + bitsOf w 17 16 * 2 ^ 40 + bitsOf w 12 8 * 2 ^ 35 + bitsOf w 4 0 * 2 ^ 30 + o)))

end Sys2Proof.Machine
end

