-- ==== Sys2Proof/Machine/Copy.lean ====
section
/-! DEFINITION. The copy engine: pushing blocks (R273 to R276, R347, R349), running them (R271, R272, R277 to R279, R348),
completion and faults (R280 to R283), and the tag instructions (R284). A command is the natural number of its 64 bytes. -/

namespace Sys2Proof.Machine

/-! ### Fields of commands (R273, R347) -/

/-- A signed 24-bit origin. -/
def cmdOrg (raw off i : Nat) : Int := (BitVec.ofNat 24 (cmdField raw (off + 3 * i) 3)).toInt
/-- WEXT_i. -/
def cmdExt (raw i : Nat) : Nat := cmdField raw (47 + 3 * i) 3
/-- The elements of a window. -/
def cmdCount (raw : Nat) : Nat := ((List.range 5).map (cmdExt raw)).foldl (· * ·) 1
/-- The window index of an element (R273). -/
def windowIndex (raw l : Nat) : List Nat :=
  let step (acc : List Nat × Nat) (i : Nat) : List Nat × Nat :=
    (acc.1 ++ [acc.2 % max 1 (cmdExt raw i)], acc.2 / max 1 (cmdExt raw i))
  ((List.range 5).foldl step ([], l)).1
/-- The coordinates of an element: origin plus window index. -/
def windowCoord (raw off l : Nat) : List Int :=
  ((windowIndex raw l).zip (List.range 5)).map fun e => cmdOrg raw off e.2 + (e.1 : Int)

/-! ### Checks at issue (R275, R276) -/

/-- What the checks of a push find: a trap, a status, or nothing. -/
inductive PushCheck where
  | trap (cause : Nat) (val : Word)
  | status (n : Nat)
  | ok
  deriving DecidableEq, Repr

/-- Steps 1 and 2 of R166 on a counter's address. -/
def State.counterFault (s : State) (a : Word) : Option Nat :=
  let k := keyOf a
  let special := addrForm a && (s.isLocal a || devOf a < s.podDevices) && regionOf k = 3 &&
    ((s.isLocal a && k - ctlKey 0 = mcQueueOff) || (jobQueueOf? (k - ctlKey 0)).isSome)
  if a.toNat % 32 = 0 && special then none
  else match s.cellPlace a 32 {} with
    | .error c => some c
    | .ok _ => none

/-- The first of a list of (failing, field bit) pairs as a LAYOUT trap at an address. -/
def firstLayout (addr : Nat) (l : List (Bool × Nat)) : PushCheck :=
  match l.find? (·.1) with
  | some e => .trap 9 (layoutVal addr e.2)
  | none => .ok

/-- One check after another: the first that finds something. -/
def PushCheck.andThen (a : PushCheck) (b : Unit → PushCheck) : PushCheck :=
  match a with
  | .ok => b ()
  | x => x

/-- The checks of a record at a local address (R276): readable, R266, then the rules on LOC, on the grid and on t6. -/
def State.checkRecord (s : State) (addr : Nat) : PushCheck :=
  match s.padFault addr 96 32 with
  | some (c, _) => .trap c (.ofNat 64 addr)
  | none => .ok

/-- The rules on a record that has been read. -/
def State.checkRecordFields (s : State) (addr r : Nat) (loc : Bool) : PushCheck :=
  let j? := s.fr.job.bind s.jobAt
  let gangOk := match j? with
    | some j => j.gang && recRank0 r + recCores r - 1 < j.count
    | none => false
  match recFault r with
  | some bit => .trap 9 (layoutVal addr bit)
  | none => firstLayout addr
      [(loc && recBase r / 2 ^ 19 ≠ 0, 0), (1 < recCores r && !(loc && gangOk), 416), (recFmt r = 10 && recIlv r ≠ 0, 72),
       (recFmt r = 10 && recStr r 0 ≠ 1, 216)]

/-- For a record of rank n the origin is 0 and WEXT 1 at and above n (R276). -/
def rankRule (raw off n : Nat) : List (Bool × Nat) :=
  ((List.range 5).map fun i => (n ≤ i && cmdOrg raw off i ≠ 0, 8 * off + 24 * i)) ++
  ((List.range 5).map fun i => (n ≤ i && cmdExt raw i ≠ 1, 376 + 24 * i))

/-- The checks of one command with its records, and the command as the FIFO takes it (R275 step 5, R276). R276 names no order among
rules of different records and commands: the model's is the source record, the destination record, then the command's OP and
reserved bytes, its origins, WEXT, the product, FMT and the rest (log entry 119). -/
def State.checkCommand (s : State) (kind : BlockKind) (at_ raw : Nat) : PushCheck × Cmd :=
  let readRec (a : Nat) : Nat := leValue (s.localRead a 96)
  match kind with
  | .cpy =>
    let sa := cmdField raw 0 8
    let da := cmdField raw 8 8
    let op := cmdField raw 31 1
    let sr := readRec sa
    let dr := readRec da
    let sloc := op.testBit 0
    let dloc := op.testBit 1
    let c := (s.checkRecord sa).andThen fun _ => (s.checkRecord da).andThen fun _ =>
      (s.checkRecordFields sa sr sloc).andThen fun _ => (s.checkRecordFields da dr dloc).andThen fun _ =>
      (firstLayout at_ (([(4 ≤ op, 248), (cmdField raw 62 2 ≠ 0, 496)] : List (Bool × Nat)) ++ rankRule raw 16 (recRank sr) ++
        rankRule raw 32 (recRank dr) ++ [(decide (2 ^ 48 ≤ cmdCount raw), 376)])).andThen fun _ =>
      (firstLayout da [(recFmt sr ≠ recFmt dr, 64)]).andThen fun _ =>
      firstLayout at_ [(recFmt sr = 10 && cmdOrg raw 16 0 % 4 ≠ 0, 128), (recFmt sr = 10 && cmdOrg raw 32 0 % 4 ≠ 0, 256),
        (recFmt sr = 10 && cmdExt raw 0 % 4 ≠ 0, 376)]
    (c, { raw := raw, recA := sr, recB := dr, addrA := sa, addrB := da })
  | .cpyl =>
    (firstLayout at_ [(bitsOf raw 511 192 ≠ 0, 192), (2 ^ 40 < cmdField raw 16 8, 128)], { raw := raw })
  | .cpyt =>
    let ra := cmdField raw 0 8
    let r := readRec ra
    let op := cmdField raw 31 1
    let slice : Word := .ofNat 64 (cmdField raw 8 8)
    let w := cmdField raw 33 1
    let c := (s.checkRecord ra).andThen fun _ =>
      (s.checkRecordFields ra r (op.testBit 0)).andThen fun _ =>
      (firstLayout at_ (([(4 ≤ op, 248), (cmdField raw 38 9 ≠ 0, 304), (cmdField raw 62 2 ≠ 0, 496)] : List (Bool × Nat)) ++
        rankRule raw 16 (recRank r) ++ [(decide (2 ^ 48 ≤ cmdCount raw), 376)])).andThen fun _ =>
      (firstLayout ra [(5 < recFmt r, 64)]).andThen fun _ =>
      firstLayout at_ [(15 < cmdField raw 32 1, 256), (w = 0 || codeWidth (recFmt r) < w, 264),
        (512 < cmdField raw 34 2 + w, 272), (4096 < cmdField raw 36 2 + cmdCount raw, 288),
        (!(addrForm slice && s.isLocal slice && regionOf (keyOf slice) = 2 && offOfKey (keyOf slice) = 0), 64)]
    (c, { raw := raw, recA := r, addrA := ra })
  | _ =>
    let src : Word := .ofNat 64 (cmdField raw 0 8)
    let dst := cmdField raw 8 8
    let len := cmdField raw 16 8
    let lc : Word := .ofNat 64 (cmdField raw 48 8)
    let bad := !s.isLocal src || src.toNat % 32 ≠ 0 || dst % 32 ≠ 0 || len % 32 ≠ 0 || 2 ^ 40 < len ||
      1 < cmdField raw 56 4 || (kind != .mcst && 1 < cmdField raw 60 2) || cmdField raw 62 2 ≠ 0 || (lc ≠ 0 && !s.isLocal lc)
    (if bad then .status 9 else .ok, { raw := raw })

/-- The counters of a transfer descriptor that are on this device, checked under R166 steps 1 and 2 (R347); of a multicast the
remote counter's DEV is each member's (R349). -/
def State.checkCounters (s : State) (kind : BlockKind) (raw : Nat) : PushCheck :=
  let counter (off : Nat) : PushCheck :=
    let a : Word := .ofNat 64 (cmdField raw off 8)
    if a = 0 || !s.isLocal a || (kind == .mcst && off = 40) then .ok
    else match s.counterFault a with | some c => .trap c a | none => .ok
  (counter 24).andThen fun _ => (counter 40).andThen fun _ => counter 48

/-- The counters on this device that the checks of some commands come to, up to the first that is refused, have had their addresses
translated (R231, R232). -/
def State.countersLooked (s : State) (l : List Word) : State :=
  (uptoMarks (fun a => (s.counterFault a).isSome) l 1).foldl (fun t a => t.looked a 32) s

/-- The counters of a transfer descriptor whose addresses are checked. -/
def State.countersOf (s : State) (kind : BlockKind) (x : Cmd) : List Word :=
  ([24, 40, 48].filter fun off => !(kind == .mcst && off = 40)).filterMap fun off =>
    let a : Word := .ofNat 64 (cmdField x.raw off 8)
    if a = 0 || !s.isLocal a then none else some a

/-- The checks of every command in order, and the commands. -/
def State.checkCommands (s : State) (kind : BlockKind) (base : Nat) : Nat → Nat → PushCheck × List Cmd
  | 0, _ => (.ok, [])
  | n + 1, k =>
    let at_ := base + 64 * k
    let (c, cmd) := s.checkCommand kind at_ (leValue (s.localRead at_ 64))
    match c with
    | .ok => let (c2, cs) := s.checkCommands kind base n (k + 1); (c2, cmd :: cs)
    | x => (x, [])

/-- The checks of transfer descriptors: every descriptor's fields, then the counters of each (R347). -/
def State.checkTransfers (s : State) (kind : BlockKind) (base n : Nat) : PushCheck × List Cmd :=
  let (c, cmds) := s.checkCommands kind base n 0
  (c.andThen fun _ => cmds.foldl (fun acc x => acc.andThen fun _ => s.checkCounters kind x.raw) PushCheck.ok, cmds)

/-! ### Pushing (R274, R275) -/

/-- Commands in a core's FIFO (R277). -/
def Core.fifoUsed (c : Core) : Nat := (c.fifo.map fun b => b.cmds.length - b.next).foldl (· + ·) 0

/-- A block pushed by the issuing frame. -/
def State.pushBlock (s : State) (b : Block) : State :=
  let f := s.fr
  let c := s.co
  let b1 : Block :=
    { b with
      id := s.nextBlock, handle := f.handle, frame := s.cur, part := f.part, asid := f.asid, user := !f.inS, job := f.job
      stamp := s.stamps, ranks := match f.job.bind s.jobAt with | some j => j.rankCores | none => [] }
  ({ s with nextBlock := s.nextBlock + 1, stamps := s.stamps + 1 } : State).putCo { c with fifo := c.fifo ++ [b1] }

/-- A tag that a push names: neither ready nor in error, and pending (R275). -/
def Frame.claimTag (f : Frame) (t : Nat) : Frame :=
  let bit : Word := 1 <<< t
  { f with tags := f.tags &&& ~~~bit, tagerr := f.tagerr &&& ~~~bit, tagsPending := f.tagsPending ||| bit,
           tagLines := f.tagLines.filter (·.1 != t) }

/-- A trap that the checks of a push find: poison that they read is MCHECK with DETAIL 1 (R327). -/
def State.pushTrap (s : State) (cause : Nat) (val : Word) : State := s.trap cause val (if cause = 0x1F then 1 else 0)

/-- CPY, CPYT and CPYL: the steps of R275. -/
def State.pushCommands (s : State) (kind : BlockKind) (d a b : SReg) : Result :=
  let base := s.rs a
  let w := (s.rs b).toNat
  let n := bitsOf w 12 8 + 1
  let tag := bitsOf w 5 0
  let te := w.testBit 6
  .next (if 2 ^ 13 ≤ w then s.coreStatus d 9 base
    else match s.padFault base.toNat (32 + 64 * n) 32 with
    | some (c, det) => s.trap c base det
    | none =>
      let l := base.toNat
      let counter : Word := .ofNat 64 (leValue (s.localRead l 8))
      if leValue (s.localRead (l + 8) 24) ≠ 0 then s.coreStatus d 9 base
      else
      let u := if counter = 0 then s else s.countersLooked [counter]
      match if counter = 0 then none else s.counterFault counter with
      | some c => u.trap c counter
      | none =>
        match s.checkCommands kind (l + 32) n 0 with
        | (.trap c v, _) => u.pushTrap c v
        | (.status st, _) => u.coreStatus d st base
        | (.ok, cmds) =>
          if te && s.fr.tagsPending.getLsbD tag then u.coreStatus d 7 base
          else if 32 < s.co.fifoUsed + n then u
          else
            let s1 := u.pushBlock
              { id := 0, kind := kind, handle := 0, frame := 0, part := 0, asid := 0, user := true, job := none, addr := l,
                tag := .ofNat 6 tag, te := te, ordf := w.testBit 7, counter := counter, cmds := cmds }
            let s2 := if te then s1.putFr (s1.fr.claimTag tag) else s1
            s2.coreStatus d 0 base)

def execCpy (d a b : SReg) (s : State) : Result := s.pushCommands .cpy d a b
def execCpyt (d a b : SReg) (s : State) : Result := s.pushCommands .cpyt d a b
def execCpyl (d a b : SReg) (s : State) : Result := s.pushCommands .cpyl d a b

/-- A block of transfer descriptors. -/
def transferBlock (kind : BlockKind) (l : Nat) (cmds : List Cmd) : Block :=
  { id := 0, kind := kind, handle := 0, frame := 0, part := 0, asid := 0, user := true, job := none, addr := l, tag := 0,
    te := false, ordf := false, counter := 0, cmds := cmds }

/-- XFER and XFER.CH (R347): descriptors of XFER start in array order and may overlap; of XFER.CH one runs after
another. -/
def State.pushTransfers (s : State) (chained : Bool) (d a b : SReg) : Result :=
  let base := s.rs a
  let w := (s.rs b).toNat
  let n := w % 32 + 1
  .next (if 32 ≤ w then s.coreStatus d 9 base
    else match s.padFault base.toNat (64 * n) 64 with
    | some (c, det) => s.trap c base det
    | none =>
      let (check, cmds) := s.checkTransfers .xfer base.toNat n
      let u := match check with | .status _ => s | _ => s.countersLooked (cmds.flatMap (s.countersOf .xfer))
      match check with
      | .trap c v => u.pushTrap c v
      | .status st => u.coreStatus d st base
      | .ok =>
        if 32 < s.co.fifoUsed + n then u
        else
          let s1 :=
            if chained then u.pushBlock (transferBlock .xferCh base.toNat cmds)
            else cmds.foldl (fun t c => t.pushBlock (transferBlock .xfer base.toNat [c])) u
          s1.coreStatus d 0 base)

def execXfer (d a b : SReg) (s : State) : Result := s.pushTransfers false d a b
def execXferCh (d a b : SReg) (s : State) : Result := s.pushTransfers true d a b

/-! ### Multicast groups (R349) -/

/-- A group record obeys R349. -/
def State.groupOk (s : State) (g : Nat) : Bool :=
  ((List.range 6).all fun i =>
    let (lo, n) := groupRange g i
    if i < s.podDims then 1 ≤ n && n ≤ s.podSize i else lo = 0 && n = 1) && bitsOf g 511 289 = 0

/-- MCST (R349). -/
def execMcst (d a b : SReg) (s : State) : Result :=
  let base := s.rs a
  let gl := s.rs b
  .next (match s.padFault base.toNat 64 64 with
    | some (c, det) => s.trap c base det
    | none =>
      let (check, cmds) := s.checkTransfers .mcst base.toNat 1
      let u := match check with | .status _ => s | _ => s.countersLooked (cmds.flatMap (s.countersOf .mcst))
      match check with
      | .trap c v => u.pushTrap c v
      | .status st => u.coreStatus d st base
      | .ok =>
        match s.padFault gl.toNat 64 32 with
        | some (c, det) => u.trap c gl det
        | none =>
          let g := leValue (s.localRead gl.toNat 64)
          if !s.groupOk g then u.coreStatus d 9 base
          else if 32 < s.co.fifoUsed + 1 then u
          else (u.pushBlock (transferBlock .mcst base.toNat (cmds.map fun c => { c with group := g }))).coreStatus d 0 base)

/-! ### Tags (R284) -/

/-- The L1 lines of the destinations of tags that a frame has been told are ready are invalidated (R249). -/
def State.acquireTags (s : State) (n : Nat) (m : Word) : State :=
  let ls := ((s.frameAt n).tagLines.filter fun e => m.getLsbD e.1).flatMap (·.2)
  let c := s.coreAt (n / 4)
  s.putCore (n / 4) { c with l1 := c.l1.filter fun l => !ls.contains l.line }

/-- TWANY and TWALL: at once where the condition holds, else the frame parks. -/
def State.tagWait (s : State) (d a : SReg) (all : Bool) : Result :=
  let m := s.rs a
  let f := s.fr
  let ready := f.tags &&& m
  let isOver := (f.tagsPending &&& m) = 0 || (!all && ready ≠ 0)
  .next (if isOver then (s.acquireTags s.cur ready).done1 d ready
    else s.parkFrame (if all then .tagAll m d else .tagAny m d) .raw d)

def execTwany (d a : SReg) (s : State) : Result := s.tagWait d a false
def execTwall (d a : SReg) (s : State) : Result := s.tagWait d a true

/-- The index of the lowest set bit, or 64. -/
def lowestBit (w : Word) : Nat := ((List.range 64).find? fun i => w.getLsbD i).getD 64

/-- TFFR: the lowest ready tag of the mask, acquired (R284). -/
def execTffr (d a : SReg) (s : State) : Result :=
  let i := lowestBit (s.fr.tags &&& s.rs a)
  .next ((if i < 64 then s.acquireTags s.cur (1 <<< i) else s).done1 d (.ofNat 64 i))

/-- TCLR: bits cleared in TAGS and TAGERR (R284). -/
def execTclr (a : SReg) (s : State) : Result :=
  let m := s.rs a
  .next ((s.putFr { s.fr with tags := s.fr.tags &&& ~~~m, tagerr := s.fr.tagerr &&& ~~~m }).retire)

/-! ### Elements (R271, R272, R278) -/

/-- Where an element stands: in the issuing core's scratchpad, or at a global address. -/
inductive Spot where
  | loc (l : Nat)
  | glob (a : Word)
  deriving DecidableEq, Repr

/-- The address that a fault at a spot reports (R282). -/
def Spot.val : Spot → Word
  | .loc l => .ofNat 64 l
  | .glob a => a

/-- The core to which the distributor dealt a rank of a block's gang job, which it keeps for the life of the job (R271). -/
def Block.rankCore (b : Block) (rank : Nat) : Nat := b.ranks[rank]?.getD (b.frame / 4)

/-- The spot of an element of a record (R271). A rank's element stands at a region-1 address, on the issuing core too; the DEV of
the address that a fault reports is this device's own number (log entry 117). -/
def State.spotOf (s : State) (b : Block) (r : Nat) (loc : Bool) (rank : Nat) (o : Int) : Spot :=
  let a : Word := .ofNat 64 (recBase r) + .ofInt 64 o
  let l := a.toNat % 2 ^ 19
  if !loc then .glob a
  else if recCores r = 1 then .loc l
  else .glob (.ofNat 64 (s.devNum * 2 ^ 46 + localKey (b.rankCore rank) l))

/-- The global address of a spot. -/
def Spot.addr? : Spot → Option Word
  | .loc _ => none
  | .glob a => some a

/-- The rights of a block's accesses. -/
def Block.actor (b : Block) : Actor := { asid := b.asid, part := b.part, user := b.user, core := some (b.frame / 4) }

/-- The FILL of a record at its element width (R272). -/
def fillValue (r : Nat) : Nat := recFill r * (1 + 2 ^ 16 + 2 ^ 32 + 2 ^ 48) % 2 ^ codeWidth (recFmt r)

/-- The bytes that hold an element. -/
def elemBytes (fmt : Nat) : Nat := if fmt = 10 then 3 else codeWidth fmt / 8

/-! ### Bank rows (R273, R279, R282, R288) -/

/-- The home address of the byte that holds a lane's bit of a row of a bank. -/
def laneKey (sl bank row lane : Nat) : Nat := sliceKey sl (bank * 2 ^ 18 + row * 512 + lane / 8)

/-- A lane's bit of a row. -/
def State.laneBit (s : State) (sl bank row lane : Nat) : Bool := (s.mem.get (laneKey sl bank row lane)).getLsbD (lane % 8)

/-- A lane's bit of a row written. -/
def State.setLane (s : State) (sl bank row lane : Nat) (v : Bool) : State :=
  let k := laneKey sl bank row lane
  let bit : Byte := 1 <<< (lane % 8)
  { s with mem := s.mem.set k (if v then s.mem.get k ||| bit else s.mem.get k &&& ~~~bit) }

/-- A bank of a slice is in compute mode and assigned to a partition. -/
def State.computeBank (s : State) (sl bank : Nat) (part : BitVec 6) : Bool :=
  let x := s.sliceAt sl
  x.mode.toList[bank]? == some .compute && x.bankPart.toList[bank]? == some part

/-- The slice of a CPYT command. -/
def cpytSlice (c : Cmd) : Nat := sliceOfKey (cmdField c.raw 8 8 % 2 ^ 46)
/-- The address that a bank fault of a CPYT reports (R282). -/
def cpytBankVal (c : Cmd) : Word := .ofNat 64 (cmdField c.raw 8 8 + cmdField c.raw 32 1 * 2 ^ 18)

/-- The value of a lane's element read from a bank: signed for i formats, zero-extended for n formats (R273). -/
def State.laneValue (s : State) (sl bank row w lane fmt : Nat) : Nat :=
  let v := ((List.range w).map fun i => (s.laneBit sl bank (row + i) lane).toNat * 2 ^ i).foldl (· + ·) 0
  if fmt % 2 = 0 && v.testBit (w - 1) then v + (2 ^ codeWidth fmt - 2 ^ w) else v

/-- The row writes of a CPYT from record to bank, of its first elements (R279, R282). -/
def cpytRows (b : Block) (c : Cmd) (vs : List Nat) : List RowWrite :=
  (List.range (cmdField c.raw 33 1)).map fun i =>
    { core := b.frame / 4, block := b.id, bank := cmdField c.raw 32 1, row := cmdField c.raw 34 2 + i,
      lanes := (vs.zip (List.range vs.length)).map fun e => (cmdField c.raw 36 2 + e.2, e.1.testBit i) }

/-! ### Units (R224, R271, R272, R278, R282, R343)

What a command moves by one read and one write: an element of a CPY or a CPYT, or a part of a CPYL, or of a transfer on this
device, within one granule of its source and one of its destination. -/

/-- The end of a unit at a spot: the engine's own checks of R282, or the home's answer (R209, R214); a DEV of another device
leaves through the fabric (R343), one beyond the pod's devices is XLATE. -/
def State.sideAt (s : State) (b : Block) (x : Spot) (n : Nat) (rd wr : Bool) : Side :=
  match x with
  | .loc l =>
    if 0x80000 < l + n then .refused true 4 (.ofNat 64 l)
    else if b.user && 0x60000 < l + n then .refused true 6 (.ofNat 64 l)
    else .keys ((List.range n).map fun i => localKey (b.frame / 4) (l + i))
  | .glob a =>
    let k := keyOf a
    let mine := regionOf k == 1 && coreOfKey k == b.frame / 4
    if addrForm a && !s.isLocal a then (if s.podDevices ≤ devOf a then .refused true 5 a else .away a n)
    else if s.isLocal a && mine && 0x80000 < localOfKey k + n then .refused true 4 a
    else match s.reachAll b.actor a rd wr n with
      | .ok ks => .keys ks
      | .error c => .refused (!(addrForm a && s.isLocal a && (regionOf k == 2 || (regionOf k == 1 && !mine)))) c a

/-- The end of a unit at a record's element: FILL outside the extents for a source, clipped for a destination (R272); the
element's place in a t6 group; and its address. -/
def State.recordSide (s : State) (b : Block) (r : Nat) (loc : Bool) (c : List Int) (rd : Bool) : Side × (Nat × Option Word) :=
  if recOutside r c then (if rd then .value (leBytes 8 (fillValue r)) else .clipped, (0, none))
  else
    let (rank, o, pos) := recPlace r (c.map Int.toNat)
    let x := s.spotOf b r loc rank o
    (s.sideAt b x (elemBytes (recFmt r)) rd !rd, (pos, x.addr?))

/-- The places before which a linear move's second part begins, and its third: the first granule boundaries of its source and of
its destination, the nearer first. -/
def linearFirst (src dst : Word) : Nat × Nat :=
  let f := 32 - src.toNat % 32
  let g := 32 - dst.toNat % 32
  (min f g, max f g)

/-- The `k`-th boundary of a linear move at which a granule of its source or of its destination ends (R224, R278). -/
def linearCut (src dst : Word) (k : Nat) : Nat :=
  let (a, b) := linearFirst src dst
  if a = b then a + 32 * k else if k % 2 = 0 then a + 32 * (k / 2) else b + 32 * (k / 2)

/-- How many parts a linear move has. -/
def linearCount (src dst : Word) (len : Nat) : Nat :=
  let (a, b) := linearFirst src dst
  let after (f : Nat) : Nat := if len ≤ f then 0 else (len - f + 31) / 32
  if len = 0 then 0 else 1 + after a + (if a = b then 0 else after b)

/-- The first byte and the length of a part of a linear move. -/
def linearPart (src dst : Word) (len j : Nat) : Nat × Nat :=
  let lo := if j = 0 then 0 else linearCut src dst (j - 1)
  (lo, min (linearCut src dst j) len - lo)

/-- A part of a linear move. -/
def State.linearUnit (s : State) (b : Block) (src dst : Word) (len j : Nat) : CopyUnit :=
  let (lo, n) := linearPart src dst len j
  { elem := lo, addrs := [src + .ofNat 64 lo, dst + .ofNat 64 lo]
    src := s.sideAt b (.glob (src + .ofNat 64 lo)) n true false
    dst := s.sideAt b (.glob (dst + .ofNat 64 lo)) n false true }

/-- How many units a command has: none once a CPYT's elements stand at its slice. -/
def unitCount (b : Block) (x : Cmd) : Nat :=
  let w (o : Nat) : Word := .ofNat 64 (cmdField x.raw o 8)
  match b.kind with
  | .cpy | .cpyt => cmdCount x.raw
  | _ => linearCount (w 0) (w 8) (cmdField x.raw 16 8)

/-- A unit of a command as it stands now. A CPYT's source in a bank is checked for mode and partition (R282); its destination in a
bank is written by rows. Whether the source of an element is checked and read whose destination is clipped the spec does not say: it
is, and may fault (R272; log entry 118). -/
def State.unitAt (s : State) (b : Block) (x : Cmd) (j : Nat) : CopyUnit :=
  let raw := x.raw
  let op := cmdField raw 31 1
  match b.kind with
  | .cpy =>
    let (a, p, v) := s.recordSide b x.recA (op.testBit 0) (windowCoord raw 16 j) true
    let (d, q, w) := s.recordSide b x.recB (op.testBit 1) (windowCoord raw 32 j) false
    { elem := j, src := a, dst := d, addrs := v.toList ++ w.toList, six := if recFmt x.recA = 10 then some (p, q) else none }
  | .cpyt =>
    let bank := cmdField raw 32 1
    let noBank := !s.computeBank (cpytSlice x) bank b.part
    let (d, _, v) := s.recordSide b x.recA (op.testBit 0) (windowCoord raw 16 j) (!op.testBit 1)
    if noBank then { elem := j, src := .refused true 6 (cpytBankVal x), dst := .clipped }
    else if op.testBit 1 then
      { elem := j, dst := d, addrs := v.toList
        src := .value (leBytes 8 (s.laneValue (cpytSlice x) bank (cmdField raw 34 2) (cmdField raw 33 1)
          (cmdField raw 36 2 + j) (recFmt x.recA))) }
    else { elem := j, src := d, dst := .clipped, addrs := v.toList }
  | _ => s.linearUnit b (.ofNat 64 (cmdField raw 0 8)) (.ofNat 64 (cmdField raw 8 8)) (cmdField raw 16 8) j

/-- An end of a unit, for which the engine's own check stands as it was made (R282). -/
def Side.keep (now was : Side) : Side := match now with | .refused true _ _ => was | x => x

/-- A unit of a running command: the engine's own checks, once passed ahead of a unit that has been moved, are not made again (R278,
R282). -/
def State.unitNow (s : State) (b : Block) (x : Cmd) (j : Nat) : CopyUnit :=
  let u := s.unitAt b x j
  match tblGet? b.checked j with
  | some v => { u with src := u.src.keep v.src, dst := u.dst.keep v.dst }
  | none => u

/-- A refusal of a unit: its source's, else its destination's. R282 names no order between the two (log entry 127). -/
def CopyUnit.refusal (u : CopyUnit) : Option (Bool × (Nat × Word)) :=
  match u.src, u.dst with
  | .refused own c a, _ => some (own, c, a)
  | _, .refused own c a => some (own, c, a)
  | _, _ => none

/-- The bytes that a unit's source of given raw bytes gives: of a t6 group the element. -/
def CopyUnit.valueOf (u : CopyUnit) (bs : List Byte) : List Byte :=
  match u.six, u.src with
  | some (p, _), .keys _ | some (p, _), .away _ _ => leBytes 1 (leValue bs / 64 ^ p % 64)
  | _, _ => bs

/-- Homes that hold poison (R327). -/
def State.anyPoison (s : State) (ks : List Nat) : Bool := ks.any fun k => s.poison.contains (k / 32)

/-- A unit's bytes written at homes on this device, a t6 element into its group; poison travels with them (log entry 105). -/
def State.writeUnit (s : State) (u : CopyUnit) (ks : List Nat) (bs : List Byte) (bad : Bool) : State :=
  let new := match u.six with
    | some (_, q) =>
      let old := leValue (s.gather ks)
      leBytes 3 (old - old / 64 ^ q % 64 * 64 ^ q + leValue bs % 64 * 64 ^ q)
    | none => bs.take ks.length
  let s1 := match ks with
    | [] => s
    | k :: _ => if ks = (List.range ks.length).map (k + ·) then s.homeWrite k new else s.scatter ks new
  if bad then s1.markPoison ((ks.map (· / 32)).eraseDups) else s1

/-! ### Running (R277, R348) -/

/-- A block of a core's FIFO by place. -/
def State.blockAt (s : State) (c k : Nat) : Option Block := (s.coreAt c).fifo[k]?

/-- A block replaced in its FIFO. -/
def State.putBlock (s : State) (c : Nat) (b : Block) : State :=
  let co := s.coreAt c
  s.putCore c { co with fifo := co.fifo.map fun x => if x.id = b.id then b else x }

/-- A block taken out of its FIFO. -/
def State.dropBlock (s : State) (c id : Nat) : State :=
  let co := s.coreAt c
  s.putCore c { co with fifo := co.fifo.filter (·.id != id) }

/-- A transfer's wait on its counter begins (R348): satisfied at once, or an internal waiter parked. -/
def State.startWait (s : State) (c : Nat) (b : Block) : State :=
  match b.cmd with
  | none => s
  | some x =>
    let a : Word := .ofNat 64 (cmdField x.raw 24 8)
    if !b.isTransfer || a = 0 then s
    else
      let r : Req := { who := .xfer c b.id, rk := .plain, addr := a }
      let s1 := (s.putBlock c { b with waiting := true }).agentLooked (coreNode c) b.asid a
      let t : Word := .ofNat 64 (cmdField x.raw 32 8)
      match s.agentTarget b.asid a with
      | .here k => if s.replayHolds r k then s1.send (.agentWait r.who a b.asid (some t)) else s1.request r k (.cntWait t false)
      | .away => s1.sendObject r.who a 6 t.toNat 0 [] (.object { who := r.who, addr := a, parks := true })
      | .bad => s1.deliver r { status := 2 }

/-- COPY_BLOCK_START: in FIFO order, at most four at once, every access that its frame issued before it complete, and with ORDF
after every earlier block of the frame (R249, R277). -/
def execCopyBlockStart (c k : Nat) (s : State) : Result :=
  .next (match s.blockAt c k with
    | none => s
    | some b =>
      let before := (s.coreAt c).fifo.take k
      let f := s.frameAt b.frame
      let mine := f.status != .empty && f.handle == b.handle
      if b.started || before.any (fun x => !x.started) || 4 ≤ (before.filter (·.started)).length ||
          (b.ordf && before.any fun x => x.handle == b.handle) || (mine && f.owes b.stamp) then s
      else
        let b1 := { b with started := true }
        (s.putBlock c b1).startWait c b1)

/-- A block of a core's FIFO by its number. -/
def State.blockById (s : State) (c id : Nat) : Option Block := (s.coreAt c).fifo.find? (·.id == id)

/-- Packets of a block's units are still on their way. -/
def State.copyOut (s : State) (c id : Nat) : Bool :=
  s.remotes.any fun r => match r.what with | .copy x y _ _ _ => x == c && y == id | _ => false

/-- The size code of a store of `n` bytes by a copy engine (R339; log entry 105). -/
def copyCode (u : CopyUnit) (n : Nat) : Nat :=
  match u.six with
  | some (_, q) => 0x18 + q
  | none => if n = 8 then 3 else if n = 4 then 2 else if n = 2 then 1 else if n = 1 then 0 else 0x20 + n

/-- The packet of a unit on another device, one access there (R224, R278): a load; a store with its data and size code; of a whole
granule, which a store packet has no room for, a beat of data (R339; log entry 105). -/
def State.unitPacket (s : State) (c : Nat) (u : CopyUnit) (a : Word) (n : Nat) (data : Option (List Byte)) (bad : Bool) : Packet :=
  match data with
  | none => { s.packet (devOf a) (coreEndpoint c) 0 0 (keyOf a) [] with size := n }
  | some bs =>
    let own := bs.take n
    let p :=
      if n = 32 && u.six.isNone then s.packet (devOf a) (coreEndpoint c) 7 2 (keyOf a) own
      else
        let body := own ++ List.replicate (31 - own.length) 0
        s.packet (devOf a) (coreEndpoint c) 2 0 (keyOf a) (body.take 8 ++ leBytes 1 (copyCode u n) ++ body.drop 8)
    { p with poison := if bad then [0] else [] }

/-- A packet of the copy engine with `n` bytes of data has gone to its gateway, over a bulk plane (R221, R341). -/
def State.bulkToGateway (s : State) (c n : Nat) : State :=
  s.crossed (coreNode c) (gatewayNode (ingressOf (coreEndpoint c))) (max 1 ((n + 511) / 512)) false true

/-- A unit's packet sent. -/
def State.sendUnit (s : State) (c : Nat) (b : Block) (u : CopyUnit) (j : Nat) (a : Word) (n : Nat) (data : Option (List Byte)) :
    State :=
  (s.bulkToGateway c n).inject (s.unitPacket c u a n data (b.tainted.contains j)) a (.copy c b.id j n data.isSome)

/-- A unit's bytes stand ready: written to their place, over a bulk plane (R221), which completes the unit, or sent to another
device. -/
def State.placeUnit (s : State) (c : Nat) (b : Block) (u : CopyUnit) (j : Nat) (bs : List Byte) : State :=
  let clear (b : Block) : Block := { b with moved := j :: b.moved, held := b.held.filter (·.1 != j) }
  match u.dst with
  | .keys ks =>
    let lines := ((ks.filter fun k => regionOf k == 0).map (· / 32)).eraseDups
    ((s.bulkWrite (coreNode c) ks).writeUnit u ks bs (b.tainted.contains j)).putBlock c
      { clear b with lines := lines ++ b.lines, wrote := u.elem :: b.wrote }
  | .away a n => (s.putBlock c { b with held := (j, bs) :: b.held.filter (·.1 != j) }).sendUnit c b u j a n (some bs)
  | _ => s.putBlock c (clear b)

/-- What a unit's source gives at once, if it is on this device. -/
def State.unitBytes (s : State) (u : CopyUnit) : Option (List Byte) :=
  match u.src with
  | .value bs => some bs
  | .keys ks => some (u.valueOf (s.gather ks))
  | _ => none

/-- The addresses of a unit's ends are translated by the engine, once, be they refused then or not (R231, R232). -/
def State.unitLooked (s : State) (c : Nat) (b : Block) (u : CopyUnit) (j : Nat) : State :=
  if (tblGet? b.checked j).isSome || (tblGet? b.held j).isSome then s
  else u.addrs.foldl (fun t a => t.agentLooked (coreNode c) b.asid a) s

/-- A unit of a block's command goes on, if no packet of it is on its way: it is read over a bulk plane (R221), and with its bytes read
it is written unless it is only to be read. -/
def State.moveUnit (s : State) (c : Nat) (b : Block) (u : CopyUnit) (j : Nat) (readOnly : Bool) : State :=
  let out := s.remotes.any fun r => match r.what with | .copy x y z _ _ => x == c && y == b.id && z == j | _ => false
  if out || b.moved.contains j then s
  else match tblGet? b.held j with
    | some bs => if readOnly then s else s.placeUnit c b u j bs
    | none =>
      let s0 := s.unitLooked c b u j
      let (s1, bad) := match u.src with
        | .keys ks => ((s0.readTouched ks).bulkRead (coreNode c) ks, s.anyPoison ks)
        | _ => (s0, false)
      let b1 := if bad then { b with tainted := j :: b.tainted } else b
      match s.unitBytes u, u.src with
      | some bs, _ => if readOnly then s1.putBlock c { b1 with held := (j, bs) :: b.held } else s1.placeUnit c b1 u j bs
      | none, .away a n => s1.sendUnit c b u j a n none
      | none, _ => s

/-- A command's units in ascending order until one is refused: the state, and the unit with what refused it (R278, R282). -/
def State.runUnits (c id : Nat) (x : Cmd) (readOnly : Bool) : Nat → Nat → State → State × Option (CopyUnit × (Nat × Word))
  | 0, _, s => (s, none)
  | n + 1, j, s =>
    match s.blockById c id with
    | none => (s, none)
    | some b =>
      let u := s.unitNow b x j
      if b.moved.contains j then State.runUnits c id x readOnly n (j + 1) s
      else match tblGet? b.refusals j, u.refusal with
        | some e, _ => (s, some (u, e))
        | none, some (_, e) => (s.unitLooked c b u j, some (u, e))
        | none, none => State.runUnits c id x readOnly n (j + 1) (s.moveUnit c b u j readOnly)

/-- The command after the one that has completed (R277). -/
def State.nextCommand (s : State) (c : Nat) (b : Block) : State :=
  let b1 := { b with
    next := b.next + 1, sent := false, pos := 0, moved := [], wrote := [], held := [], tainted := [], checked := [], refusals := [], early := false,
    added := [] }
  (s.putBlock c b1).startWait c b1

/-- The beats of a packet whose bytes stand at some homes that hold poison (R327). -/
def State.poisonBeats (s : State) (ks : List Nat) : List Nat :=
  (List.range ((ks.length + 31) / 32)).filter fun i => s.anyPoison ((ks.drop (32 * i)).take 1)

/-- A data packet of a transfer to another device, sprayed over the paths where its policy says so (R337, R348). -/
def State.dataPacket (s : State) (c : Nat) (dst : Word) (spray : Bool) (j : Nat) (bs : List Byte) : Packet :=
  let p := s.packet (devOf dst) (coreEndpoint c) 7 2 (keyOf dst) bs
  let paths := s.pathsFrom 0 0
  match if spray then paths[j % max 1 paths.length]? else none with
  | some (r, q) => { p with rot := .ofNat 3 r, port := .ofNat 4 q }
  | none => p

/-- A multicast's next packet goes down the tree (R349): it stands at its ingress gateway for the branches of the members that have
not refused, all on one path; the issuing device's own copy is placed here. -/
def State.sendTree (s : State) (c : Nat) (b : Block) (group target j : Nat) (bs : List Byte) (bad : List Nat) : State :=
  let ms := (s.groupMembers group).filter fun m => !b.bad.contains m
  let at_ (m : Nat) : Word := .ofNat 64 (m * 2 ^ 46 + target)
  let others := ms.filter (· != s.devNum)
  let port := (s.packet (others.headD 0) (coreEndpoint c) 10 2 target bs).port
  let copy (m : Nat) : Packet := { s.packet m (coreEndpoint c) 10 2 target bs with port := port, poison := bad }
  let here (t0 : State) : State :=
    let t := t0.spanLooked (coreNode c) b.asid (at_ t0.devNum) bs.length
    match t.reachAll b.actor (at_ t.devNum) false true bs.length with
    | .ok ks => ((t.bulkWrite (coreNode c) ks).scatter ks bs).markPoison ((bad.filterMap fun i => ks[32 * i]?).map (· / 32))
    | .error e => t.failBlock c b.id e (at_ t.devNum) (4096 * j) false [t.devNum]
  let s1 := if ms.contains s.devNum then here s else s
  if others.isEmpty then s1
  else (s1.bulkToGateway c bs.length).send
    (.fork { copy (others.headD 0) with mc := true, members := others.map (·, 0), rot := 0 } (some (c, (b.id, j)))
      (ingressOf (coreEndpoint c)))

/-- A member's flow takes a multicast copy: it has room and is not being purged (R341, R342). -/
def State.branchReady (s : State) (p : Packet) (m : Nat) : Bool :=
  match s.flowOut? (ingressOf p.sep.toNat) m 2 with
  | some f => f.unacked.length < 1024 && !f.purging
  | none => true

/-- The members of a packet that this device issued which have not refused (R349), those whose flows take it first, and the others. -/
def State.membersReady (s : State) (p : Packet) : Option (Nat × (Nat × Nat)) → List (Nat × BitVec 11) × List (Nat × BitVec 11)
  | none => (p.members, [])
  | some (c, (id, _)) =>
    let bad := match s.blockById c id with | some b => b.bad | none => []
    (p.members.filter fun e => !bad.contains e.1).partition fun e => s.branchReady p e.1

/-- The copies of a branch as they leave the issuing device, each numbered in its member's flow; a member that is unreachable
gets none, and one whose flow has lost the tree's path gets its copy alone on another (R341, R342, R344, R349). -/
def State.numberBranch (s : State) (p : Packet) (origin : Option (Nat × (Nat × Nat))) (ms : List (Nat × BitVec 11)) :
    List (Nat × BitVec 11) × State :=
  match origin with
  | none => (ms, s)
  | some (c, (id, j)) => ms.foldl (fun acc e =>
      let f := (acc.2.flowOut? (ingressOf p.sep.toNat) e.1 2).getD { dst := e.1, cls := 2, gateway := ingressOf p.sep.toNat }
      let lost := f.failedPorts.contains (pathCode p.rot.toNat p.port.toNat)
      let copy : Packet := { p with dst := .ofNat 18 e.1, members := [], mc := false }
      let one := if lost then (acc.2.onPath f copy true).getD copy else copy
      let (q, t) := acc.2.reserveSeq one (.ofNat 64 (e.1 * 2 ^ 46 + p.target.toNat)) (.data c id j)
      if f.unreachable then (acc.1, t)
      else if lost then (acc.1, t.transmit { one with seq := q })
      else (acc.1 ++ [(e.1, q)], t)) ([], s)

/-- A multicast's next packet may enter the tree: the reserve has room for it, and no member's flow is full or being purged
(R341, R342, R349). -/
def State.treeReady (s : State) (c : Nat) (group : Nat) : Bool :=
  s.reserveFree (ingressOf (coreEndpoint c)) 4096 && (s.groupMembers group).all fun m =>
    match s.flowOut? (ingressOf (coreEndpoint c)) m 2 with
    | some f => f.unacked.length < 1024 && f.queued.isEmpty && !f.purging
    | none => true

/-- A block's command has met a fault: once no packet of its units is on its way, it fails at the refused unit, PART saying
whether some element from there on has been written (R282, R283). -/
def State.commandFault (s : State) (c : Nat) (b : Block) (f : CopyUnit × (Nat × Word)) : State :=
  if s.copyOut c b.id then s
  else
    s.failBlock c b.id f.2.1 f.2.2 f.1.elem (b.wrote.any (f.1.elem ≤ ·))

/-- A transfer whose data have all been sent: its local counter receives its add where EARLY is set and nothing has failed
(R348). -/
def State.allSent (s : State) (c : Nat) (b : Block) (x : Cmd) : State :=
  match s.blockById c b.id with
  | some y =>
    let early := (cmdField x.raw 56 4).testBit 0 && y.failed.isNone
    let s1 := s.putBlock c { y with sent := true, early := early }
    if early then s1.blockAdd b (.ofNat 64 (cmdField x.raw 48 8)) 0 else s1
  | none => s

/-- A transfer whose source cannot be read sends nothing more. -/
def State.sourceFault (s : State) (c : Nat) (b : Block) (x : Cmd) (cause : Nat) (a : Word) : State :=
  let s1 := s.failBlock c b.id cause a (4096 * b.pos) false (if b.kind == .mcst then s.groupMembers x.group else [])
  match s1.blockById c b.id with
  | some y => s1.putBlock c { y with sent := true }
  | none => s1

/-- A transfer within this device: its parts over the bulk planes, as the copy engine moves them (R348). -/
def State.localTransfer (s : State) (c : Nat) (b : Block) (x : Cmd) : State :=
  let (s1, e) := State.runUnits c b.id x false (unitCount b x) 0 s
  match e with
  | none => s1.allSent c b x
  | some (u, e) => s1.failBlock c b.id e.1 (.ofNat 64 (cmdField x.raw 8 8) + .ofNat 64 u.elem) u.elem false [s.devNum]

/-- The packets of a transfer: 4,096 bytes each. -/
def packetCount (x : Cmd) : Nat := (cmdField x.raw 16 8 + 4095) / 4096

/-- A transfer's flow takes another packet at once: it would not wait in the flow, where a refusal could not stop it (R341, R348). -/
def State.flowReady (s : State) (c dst : Nat) : Bool :=
  match s.flowOut? (ingressOf (coreEndpoint c)) dst 2 with
  | some f => f.unacked.length < 1024 && f.queued.isEmpty && !f.purging
  | none => true

/-- A transfer to other devices reads its source and sends its next packet (R348): to its destination, or down the tree of its
group, the issuing device's own copy being placed beside it (R349). R224 and R348 promise no order among the reads of its granules:
the model reads the packet's up to 4,096 bytes at one instant (log entry 120). -/
def State.sendPacket (s : State) (c : Nat) (b : Block) (x : Cmd) : State :=
  let src : Word := .ofNat 64 (cmdField x.raw 0 8)
  let dst : Word := .ofNat 64 (cmdField x.raw 8 8)
  let len := cmdField x.raw 16 8
  let o := 4096 * b.pos
  let n := min 4096 (len - o)
  if len ≤ o then s.allSent c b x
  else if b.kind == .mcst && !s.treeReady c x.group then s
  else if b.kind != .mcst && s.podDevices ≤ devOf dst then s.failBlock c b.id 5 dst 0 false
  else if b.kind != .mcst && !s.flowReady c (devOf dst) then s
  else
    let look := s.spanLooked (coreNode c) b.asid (src + .ofNat 64 o) n
    match s.reachAll b.actor (src + .ofNat 64 o) true false n with
    | .error e => look.sourceFault c b x e (dst + .ofNat 64 o)
    | .ok ks =>
      let bs := s.gather ks
      let b1 := { b with pos := b.pos + 1 }
      let s1 := ((look.readTouched ks).bulkRead (coreNode c) ks).putBlock c b1
      let s2 :=
        if b.kind == .mcst then s1.sendTree c b1 x.group (keyOf dst + o) b.pos bs (s.poisonBeats ks)
        else
          let p := s1.dataPacket c (dst + .ofNat 64 o) (cmdField x.raw 60 2 = 1) b.pos bs
          (s1.bulkToGateway c n).inject { p with poison := s.poisonBeats ks } (dst + .ofNat 64 o) (.data c b.id b.pos)
      if len ≤ o + n then s2.allSent c b x else s2

/-- A CPYT into a bank: its elements are gathered, then its row writes stand at the slice, and with the last of them performed it
completes; behind a refused element the rows hold those before it (R279, R282). -/
def State.gatherRows (s : State) (c : Nat) (b : Block) (x : Cmd) : State :=
  let sl := cpytSlice x
  if b.sent then
    (if (s.sliceAt sl).rows.any (fun r => r.block == b.id && r.core == c) then s
     else match b.refusals with
       | (l, e) :: _ => s.failBlock c b.id e.1 e.2 l false
       | [] => s.nextCommand c b)
  else
    let n := cmdCount x.raw
    let (s1, e) := State.runUnits c b.id x true n 0 s
    if s1.copyOut c b.id then s1
    else match s1.blockById c b.id with
      | none => s1
      | some b1 =>
        let upTo := match e with | some (u, _) => u.elem | none => n
        let vs := (List.range upTo).map fun l => leValue ((tblGet? b1.held l).getD [])
        let b2 := { b1 with sent := true, refusals := match e with | some (u, f) => [(u.elem, f)] | none => [] }
        let z := s1.sliceAt sl
        let s2 := if upTo = 0 then s1 else s1.putSlice sl { z with rows := z.rows ++ cpytRows b1 x vs }
        s2.putBlock c b2

/-- COPY_COMMAND_COMPLETE: the running command of a block moves the units that are left and completes when all have been moved
(R277 to R279); which of them have been read or written before, the agenda says (`State.copyTurn`). A transfer sends its
data. -/
def execCopyCommandComplete (c k : Nat) (s : State) : Result :=
  .next (match s.blockAt c k with
    | none => s
    | some b =>
      match b.cmd with
      | none => s
      | some x =>
        if !b.started || b.waiting || (b.failed.isSome && b.kind != .mcst) then s
        else if b.isTransfer then
          (if b.sent then s
           else if b.kind != .mcst && s.isLocal (.ofNat 64 (cmdField x.raw 8 8)) then s.localTransfer c b x
           else s.sendPacket c b x)
        else if b.kind == .cpyt && !(cmdField x.raw 31 1).testBit 1 then s.gatherRows c b x
        else
          let (s1, e) := State.runUnits c b.id x false (unitCount b x) 0 s
          match s1.blockById c b.id, e with
          | some b1, some e => s1.commandFault c b1 e
          | some b1, none => if s1.copyOut c b.id || b1.held != [] then s1 else s1.nextCommand c b1
          | none, _ => s1)

/-- One unit of a running command out of its order: read, or once read written. Each unit up to it has passed the engine's own
checks, which then stand, beside those made before (R278, R282). -/
def State.copyTurn (s : State) (c k j : Nat) : State :=
  match s.blockAt c k with
  | none => s
  | some b =>
    match b.cmd with
    | none => s
    | some x =>
      let rows := b.kind == .cpyt && !(cmdField x.raw 31 1).testBit 1
      let here := !b.isTransfer || (b.kind != .mcst && s.isLocal (.ofNat 64 (cmdField x.raw 8 8)))
      let us := (List.range (j + 1)).map fun i => (i, s.unitNow b x i)
      let passed := us.all fun e => match e.2.refusal with | some (own, _) => !own | none => true
      let u := s.unitNow b x j
      if !b.started || b.waiting || b.failed.isSome || b.sent || !here || unitCount b x ≤ j || !passed || u.refusal.isSome
      then s
      else
        let new := us.filter fun e => !b.moved.contains e.1 && (tblGet? b.checked e.1).isNone
        let b1 := { b with checked := new ++ b.checked }
        ((new.foldl (fun t e => t.unitLooked c b e.2 e.1) s).putBlock c b1).moveUnit c b1 u j (rows || (tblGet? b.held j).isNone)

/-- A held row write can be performed: its block is still in its core's FIFO and its bank in compute mode. -/
def State.performsRow (s : State) (sl : Nat) (r : RowWrite) : Bool :=
  match (s.coreAt r.core).fifo.find? (·.id == r.block) with
  | some b => s.computeBank sl r.bank b.part
  | none => false

/-- One held row write is performed; where its bank has left compute mode the command faults (R279, R286). -/
def State.performRow (s : State) (sl : Nat) : State :=
  let x := s.sliceAt sl
  match x.rows with
  | [] => s
  | r :: rest =>
    match (s.coreAt r.core).fifo.find? (·.id == r.block) with
    | none => s.putSlice sl { x with rows := rest }
    | some b =>
      if s.computeBank sl r.bank b.part then
        r.lanes.foldl (fun t e => t.setLane sl r.bank r.row e.1 e.2) (s.putSlice sl { x with rows := rest })
      else
        let s1 := s.putSlice sl { x with rows := rest.filter (·.block != r.block) }
        let first := (b.cmd.map fun c => cmdField c.raw 34 2).getD r.row
        s1.failBlock r.core r.block 6 ((b.cmd.map cpytBankVal).getD 0) 0 (first < r.row)

/-! ### Completion (R280 to R283) -/

/-- A frame parked on tags whose wait is over: its result, and that it may go on (R284). -/
def Frame.tagWake (f : Frame) : Option (Word × Frame) :=
  let go (m : Word) (d : SReg) : Option (Word × Frame) := some (f.tags &&& m, (f.setS d (f.tags &&& m)).unparked)
  if f.status != .parked then none
  else match f.parkedOn with
    | .tagAny m d => if (f.tags &&& m) ≠ 0 || (f.tagsPending &&& m) = 0 then go m d else none
    | .tagAll m d => if (f.tagsPending &&& m) = 0 then go m d else none
    | _ => none

/-- A frame's context changed, resident or saved; nothing for one that is dead or gone (R322, R325). -/
def State.onContext (s : State) (frame : Nat) (h : BitVec 20) (g : Frame → Frame) : State :=
  let c := s.ctxAt h.toNat
  if c.state = .resident then s.putFrame c.frame (g (s.frameAt c.frame))
  else if s.isSaved h then s.updateImage h.toNat g
  else if frame < 16384 && (s.frameAt frame).handle = h && (s.frameAt frame).status != .empty then
    s.putFrame frame (g (s.frameAt frame))
  else s

/-- A context parked on tags goes on once its tags allow (R132, R284, R322). -/
def State.wakeTags (s : State) (frame : Nat) (h : BitVec 20) : State :=
  let c := s.ctxAt h.toNat
  if s.isSaved h then
    match ((c.image).map (s.readImage h.toNat)).bind Frame.tagWake with
    | some (_, f) =>
      let s1 := s.updateImage h.toNat fun _ => f
      ({ s1.putCtx h.toNat { s1.ctxAt h.toNat with state := .runnable, parked := false, order := s1.stamps } with
          stamps := s1.stamps + 1 } : State)
    | none => s
  else
    let n := if c.state = .resident then c.frame else frame
    match (s.frameAt n).tagWake with
    | some (m, f) => if f.handle = h then (s.putFrame n f).acquireTags n m else s
    | none => s

/-- A block's tag set, in error or not, for its frame (R280). -/
def Frame.finishTag (f : Frame) (b : Block) (err : Bool) : Frame :=
  if !b.te then f
  else
    let bit : Word := 1 <<< b.tag.toNat
    { f with tags := f.tags ||| bit, tagerr := if err then f.tagerr ||| bit else f.tagerr,
             tagsPending := f.tagsPending &&& ~~~bit, tagLines := (b.tag.toNat, b.lines) :: f.tagLines }

/-- A block leaves: tag and counter (R280). -/
def State.finishBlock (s : State) (c : Nat) (b : Block) (err : Bool) : State :=
  let s1 := s.dropBlock c b.id
  let s2 := s1.blockAdd b b.counter err.toNat
  if b.orphan then s2 else (s2.onContext b.frame b.handle (·.finishTag b err)).wakeTags b.frame b.handle

def execCopyBlockComplete (c k : Nat) (s : State) : Result :=
  .next (match s.blockAt c k with
    | some b => if b.started && b.cmd.isNone && b.failed.isNone && !b.isTransfer then s.finishBlock c b false else s
    | none => s)

/-- The fault record of R283: MORE while VALID stands, else a new record and a pending COPY; MORE stays until it is written 1. -/
def Frame.copyFault (f : Frame) (b : Block) (cause : BitVec 8) (a : Word) : Frame :=
  let more : Word := f.faulta &&& (1 <<< 21)
  if f.faulta.getLsbD 22 then { f with faulta := f.faulta ||| (1 <<< 21) }
  else
    { f with
      faulta := more ||| .ofNat 64 (b.tag.toNat + b.te.toNat * 2 ^ 6 + b.next % 32 * 2 ^ 7 + cause.toNat * 2 ^ 12 +
        b.failPart.toNat * 2 ^ 20 + 2 ^ 22 + b.addr % 2 ^ 19 * 2 ^ 24)
      faultb := .ofNat 64 (b.failElem % 2 ^ 48)
      pendCopy := some a }

/-- COPY_FAULT: a block whose command has faulted completes with its error mark, and the fault is recorded (R282,
R283). -/
def execCopyFault (c k : Nat) (s : State) : Result :=
  .next (match s.blockAt c k with
    | some b =>
      match b.failed with
      | some (cause, a) =>
        if b.isTransfer then s
        else
          let s1 := if b.orphan then s else s.onContext b.frame b.handle (·.copyFault b cause a)
          s1.finishBlock c b true
      | none => s
    | none => s)

/-! ### Transfers and multicast (R348, R349) -/

/-- Data packets of a block are still on their way. -/
def State.dataOut (s : State) (c id : Nat) : Bool :=
  (s.remotes.any fun r => match r.what with | .data x y _ => x == c && y == id | _ => false) ||
  (s.msgs.any fun m => match m with | .fork _ (some (x, (y, _))) _ => x == c && y == id | _ => false)

/-- A descriptor is done: the next of a chain, or the block leaves. -/
def State.afterTransfer (s : State) (c : Nat) (b : Block) : State :=
  if b.next + 1 < b.cmds.length then s.nextCommand c b else s.dropBlock c b.id

/-- TRANSFER_WAIT_WAKE: OK starts the transfer, any other status ends it with DETAIL 0x02 before any packet is sent, for every member
of a multicast (R344, R348). -/
def execTransferWaitWake (n : Nat) (s : State) : Result :=
  s.onMsg n fun m => match m with
    | .xferWake c id status _ => some fun s =>
      match (s.coreAt c).fifo.find? (·.id == id) with
      | some b =>
        if status = 0 then s.putBlock c { b with waiting := false }
        else
          (s.putBlock c { b with waiting := false, sent := true }).failBlock c id 2
            (.ofNat 64 ((b.cmd.map fun x => cmdField x.raw 24 8).getD 0)) 0 false
            (if b.kind == .mcst then s.groupMembers ((b.cmd.map (·.group)).getD 0) else [])
      | none => s
    | _ => none

/-- A member's copy of a multicast has been sent and nothing of it is on its way. -/
def State.memberDone (s : State) (c : Nat) (b : Block) (m : Nat) : Bool :=
  b.sent && !(s.remotes.any fun r => match r.what with | .data x y _ => x == c && y == b.id && r.dst == m | _ => false)

/-- The members of a multicast whose copy has been performed and whose counter's add has not left. -/
def State.membersDue (s : State) (c : Nat) (b : Block) (x : Cmd) : List (Nat × Word) :=
  if b.kind == .mcst then
    (s.remoteCounters b x).filter fun e => !b.added.contains e.1 && !b.bad.contains e.1 && s.memberDone c b e.1
  else []

/-- The remote counters of a transfer whose adds have still to leave. -/
def State.countersLeft (s : State) (b : Block) (x : Cmd) : List (Nat × Word) :=
  (s.remoteCounters b x).filter fun e => !b.added.contains e.1

/-- TRANSFER_COMPLETE: a member of a multicast whose copy has been performed has its add sent to its counter; every packet
acknowledged, the counters that are left receive theirs (R348, R349). -/
def execTransferComplete (c k : Nat) (s : State) : Result :=
  .next (match s.blockAt c k with
    | some b =>
      match b.cmd with
      | some x =>
        if !b.isTransfer || !b.sent then s
        else match s.membersDue c b x with
          | e :: _ => (s.blockAdd b e.2 0).putBlock c { b with added := e.1 :: b.added }
          | [] =>
            if b.failed.isSome || s.dataOut c b.id then s
            else
              let s1 := (s.countersLeft b x).foldl (fun t e => t.blockAdd b e.2 0) s
              (s1.blockAdd b (b.localCounter x) 0).afterTransfer c b
      | none => s
    | none => s)

/-- TRANSFER_ERROR: each counter whose add has not left receives it with the mark; the rest of a chain is not started;
FABRIC is pending (R348, R349). -/
def execTransferError (c k : Nat) (s : State) : Result :=
  .next (match s.blockAt c k with
    | some b =>
      match b.cmd, b.failed with
      | some x, some (detail, a) =>
        if !b.isTransfer || s.dataOut c b.id || (b.kind == .mcst && !b.sent) then s
        else
          let mark (m : Nat) : Nat := if b.kind == .mcst then (b.bad.contains m).toNat else 1
          let s1 := (s.countersLeft b x).foldl (fun t e => t.blockAdd b e.2 (mark e.1)) s
          let s2 := (s1.blockAdd b (b.localCounter x) 1).dropBlock c b.id
          if b.orphan then s2
          else s2.onContext b.frame b.handle fun f => { f with pendFabric := f.pendFabric ++ [(detail, a)] }
      | _, _ => s
    | none => s)

/-- MULTICAST_FORK: a branch of a held multicast packet receives its copy; the gateway holds the packet until the last branch
has been sent (R349). On the issuing device a member that has refused has none, and one whose flow takes none as yet waits. -/
def execMulticastFork (n : Nat) (s : State) : Result :=
  s.onMsg n fun m => match m with
    | .fork p o g =>
      let (now, later) := s.membersReady p o
      if now.isEmpty && !later.isEmpty then none
      else some fun s =>
        let (ms, rest) := s.nextBranch { p with members := now }
        let (sent, s1) := s.numberBranch p o ms
        let s2 := if sent.isEmpty then s1 else s1.transmit { p with dst := .ofNat 18 (sent.headD (0, 0)).1, members := sent }
        if (rest ++ later).isEmpty then s2 else s2.send (.fork { p with members := rest ++ later } o g)
    | _ => none

end Sys2Proof.Machine
end

