-- ==== Sys2Proof/Machine/Moss.lean ====
section
/-! DEFINITION. Moss mode: the modes of banks (R285 to R287), calls and their checks (R289 to R291), what the vendor
entries compute and how long they take (R292, R293), the command bus (R294), and budget, errors, status and abort (R297
to R300). -/

namespace Sys2Proof.Machine

/-! ### Slices by address, banks by mask (R285, R286) -/

/-- The slice that a region-2 address of this device names, its offset zero (R286). -/
def State.sliceAddr? (s : State) (a : Word) : Option Nat :=
  if addrForm a && s.isLocal a && regionOf (keyOf a) = 2 && offOfKey (keyOf a) = 0 then some (sliceOfKey (keyOf a)) else none

/-- The banks of a mask. -/
def banksOf (mask : Nat) : List Nat := (List.range 16).filter mask.testBit

/-- The mode of a bank. -/
def Slice.modeAt (x : Slice) (b : Nat) : BankMode := x.mode.toList[b]?.getD .cache
/-- The partition to which a bank is assigned; one in cache mode belongs to none (R285). -/
def Slice.ownerAt (x : Slice) (b : Nat) : Option (BitVec 6) :=
  if x.modeAt b = .cache then none else x.bankPart.toList[b]?

/-- The code of a mode (R286). -/
def BankMode.code : BankMode → Nat
  | .cache => 0
  | .scratch => 1
  | .compute => 2

/-- The mode of a code. -/
def BankMode.ofCode (n : Nat) : BankMode := if n = 1 then .scratch else if n = 2 then .compute else .cache

/-- The banks of the whole device in scratch or compute mode that are assigned to a partition (R285). -/
def State.banksHeld (s : State) (p : BitVec 6) : Nat :=
  (s.slices.map fun e => ((List.range 16).filter fun b => e.2.ownerAt b == some p).length).foldl (· + ·) 0

/-! ### BSPART (R213, R286) -/

/-- The argument block's fields by offset (R290). -/
def Call.field (c : Call) (off n : Nat) : Nat := cmdField c.block off n
/-- The bank mask of a call. -/
def Call.mask (c : Call) : Nat := c.field 0 2

/-- A bank of a mask has a queued or running call, or a CPYT row write held at the slice (R286). -/
def Slice.busyBank (x : Slice) (b : Nat) : Bool :=
  (x.queue ++ (x.run.map (·.call)).toList).any (fun c => c.mask.testBit b) || x.rows.any (·.bank == b)

/-- The pinned lines of a slice by set; whether some set holds more than a limit (R213, R225). -/
def State.pinsOver (s : State) (sl limit : Nat) : Bool :=
  let pins := s.lines.filter fun l => l.pin.isSome && sliceOfPA (l.line * 256) == sl
  pins.any fun l => limit < (pins.filter fun k => sameSet k.line l.line).length

/-- The lines of a slice once some of its banks leave cache mode and others stay: the lines of the leaving banks are written
back and dropped, but for the pinned ones, each of which moves to a way of its set: the lowest that is empty, else that of the
line that replacement would evict, which is written back (R212, R213; log entry 103). -/
def leaveBanks (sl : Nat) (leave stay : List Nat) (ls : List SliceLine) : List SliceLine :=
  let goes (l : SliceLine) : Bool := sliceOfPA (l.line * 256) == sl && leave.contains l.way
  let move (acc : List SliceLine) (l : SliceLine) : List SliceLine :=
    let put (w : Nat) (acc : List SliceLine) : List SliceLine := acc.map fun x => if x.line = l.line then { x with way := w } else x
    match freeWay stay (acc.filter fun x => sameSet x.line l.line) with
    | some w => put w acc
    | none =>
      match (victimLine acc l.line).bind (findLine acc) with
      | some v => put v.way (acc.filter (·.line != v.line))
      | none => acc
  (ls.filter fun l => goes l && l.pin.isSome).foldl move (ls.filter fun l => !goes l || l.pin.isSome)

/-- A bank cleared to zero. -/
def State.clearBank (s : State) (sl b : Nat) : State :=
  s.clearRange (sliceKey sl (b * 2 ^ 18)) (sliceKey sl (b * 2 ^ 18) + 2 ^ 18)

/-- The slice's one serialised operation of R286: a status and the state. -/
def State.bspart (s : State) (sl mask mode : Nat) (p : BitVec 6) : Nat × State :=
  let x := s.sliceAt sl
  let bs := banksOf mask
  let leave := bs.filter fun b => x.modeAt b = .cache && mode ≠ 0
  let join := bs.filter fun b => x.modeAt b ≠ .cache && mode = 0
  let ways := x.ways + join.length - leave.length
  if bs.any fun b => ((x.ownerAt b).isSome && x.ownerAt b != some p) || x.busyBank b then (7, s)
  else if (s.part p.toNat).bankQuota.toNat + join.length < s.banksHeld p + leave.length then (11, s)
  else if ways < 2 || (leave != [] && s.pinsOver sl (ways - 2)) then (12, s)
  else
    let cleared := if mode = 0 then [] else bs.filter fun b => (x.modeAt b).code ≠ mode
    let inMask (i : Nat) : Bool := bs.contains i
    let x1 : Slice :=
      { x with
        mode := Vector.ofFn fun i : Fin 16 => if inMask i.val then BankMode.ofCode mode else x.mode[i]
        bankPart := Vector.ofFn fun i : Fin 16 => if inMask i.val then p else x.bankPart[i] }
    let s1 := if leave = [] then s else { s with lines := leaveBanks sl leave x1.wayList s.lines }
    (0, (cleared.foldl (fun t b => t.clearBank sl b) s1).putSlice sl x1)

/-- BSPART: INVALID at the core; else the frame parks until the slice replies. -/
def execBspart (d a b : SReg) (s : State) : Result :=
  let addr := s.rs a
  let w := (s.rs b).toNat
  .next (match s.sliceAddr? addr with
    | none => s.coreStatus d 9 addr
    | some sl =>
      if w % 2 ^ 16 = 0 || w / 2 ^ 16 % 4 = 3 || 2 ^ 18 ≤ w then s.coreStatus d 9 addr
      else
        let s1 := s.parkFrame .slice .plain d
        let (status, s2) := s1.bspart sl (w % 2 ^ 16) (w / 2 ^ 16 % 4) s.fr.part
        s2.deliver { who := s.me, rk := .plain, d := d, addr := addr } { status := status })

/-! ### Argument blocks (R290, R292) -/

/-- Which fields an entry reads, and where its Z may stand (R290, R292). -/
structure EntryUse where
  x : Bool := false
  y : Bool := false
  z : Bool := true
  k : Bool := false
  flags : Bool := true
  zOnX : Bool := false
  zOnY : Bool := false
  flagRow : Bool := false
  deriving DecidableEq, Repr

/-- The uses of the vendor entries (R290, R292). The flags byte is read by every one of them. -/
def vendorUse : Nat → EntryUse
  | 0 => { zOnX := true }
  | 1 => { x := true, zOnX := true }
  | 2 => { x := true, y := true, zOnX := true, zOnY := true }
  | 3 => { x := true, y := true, zOnX := true, zOnY := true }
  | 4 => { x := true, k := true, zOnX := true }
  | 5 => { x := true, k := true }
  | 6 => { x := true, y := true, k := true, zOnY := true }
  | 7 => { x := true, y := true, flagRow := true }
  | 8 => { x := true, y := true, k := true }
  | 9 => { x := true, y := true }
  | 10 => { x := true, y := true }
  | 11 => { x := true }
  | 12 => { x := true, k := true, zOnX := true }
  | 13 => { x := true, k := true, zOnX := true }
  | 14 => { x := true, k := true, flagRow := true }
  | _ => { x := true }

/-- The uses of an entry in a slice: the vendor's, or those of its entry table (R292, R367). -/
def Slice.useOf (x : Slice) (e : Nat) : EntryUse :=
  if e < 16 then vendorUse e
  else
    let t := (tblGet? x.table e).getD { start := 0, uses := 0, overlap := 0 }
    let u := t.uses
    let o := t.overlap
    { x := u.getLsbD 0, y := u.getLsbD 1, z := u.getLsbD 2, k := u.getLsbD 3, flags := u.getLsbD 4,
      zOnX := o.getLsbD 0, zOnY := o.getLsbD 1, flagRow := o.getLsbD 2 }

/-- Rows [a, a + n) and [b, b + m) have a row in common. -/
def rowsMeet (a n b m : Nat) : Bool := a < b + m && b < a + n

/-- An operand's base and width are within limits where it is used, and zero where it is not. -/
def operandOk (used : Bool) (base width : Nat) : Bool :=
  if used then 1 ≤ width && width ≤ 32 && base + width ≤ 512 else base = 0 && width = 0

/-- An argument block obeys R290 for an entry, but for its counter's cell (`State.counterCell`). -/
def blockOk (u : EntryUse) (e blk : Nat) : Bool :=
  let g (off n : Nat) : Nat := cmdField blk off n
  let (bx, by_, bz) := (g 2 2, g 4 2, g 6 2)
  let (wx, wy, wz) := (g 8 1, g 9 1, g 10 1)
  let k := g 12 4
  g 0 2 ≠ 0 && operandOk u.x bx wx && operandOk u.y by_ wy && operandOk u.z bz wz &&
    (if u.flags then g 11 1 < 4 else g 11 1 = 0) && (u.k || k = 0) && g 16 8 ≠ 0 && g 28 4 = 0 &&
    (!u.flagRow || wz = 1) &&
    (!(u.x && u.z && rowsMeet bz wz bx wx) || (u.zOnX && bz = bx)) &&
    (!(u.y && u.z && rowsMeet bz wz by_ wy) || (u.zOnY && bz = by_)) &&
    (match e with
     | 8 => k < 512 && !rowsMeet bz wz k 1
     | 12 | 13 => k < 64
     | _ => true)

/-! ### Results (R292) -/

/-- The integer in `w` rows of a lane, read from rows as they stood. -/
def laneInt (m : Memory) (sl bank row w lane : Nat) (signed : Bool) : Int :=
  let v : Nat := ((List.range w).map fun i => ((m.get (laneKey sl bank (row + i) lane)).getLsbD (lane % 8)).toNat * 2 ^ i).foldl
    (· + ·) 0
  if signed && v.testBit (w - 1) then (v : Int) - (2 ^ w : Nat) else v

/-- The ones among the low `w` bits. -/
def popBits (w v : Nat) : Nat := ((List.range w).filter v.testBit).length

/-- K as an integer: an i32 when signed (R290). -/
def Call.k (c : Call) : Int := if (c.field 11 1).testBit 1 then (BitVec.ofNat 32 (c.field 12 4)).toInt else c.field 12 4

/-- The exact r of a vendor entry in one lane of one bank (R292). -/
def entryResult (m : Memory) (c : Call) (sl bank lane : Nat) : Int :=
  let signed := (c.field 11 1).testBit 1
  let at_ (l : Nat) : Int := laneInt m sl bank (c.field 2 2) (c.field 8 1) l signed
  let x := at_ lane
  let y := laneInt m sl bank (c.field 4 2) (c.field 9 1) lane signed
  let k := c.k
  let sh := c.field 12 4 % 64
  let raw := (laneInt m sl bank (c.field 2 2) (c.field 8 1) lane false).toNat
  match c.entry.toNat with
  | 0 => 0
  | 1 => x
  | 2 => x + y
  | 3 => x - y
  | 4 => x + k
  | 5 => k * x
  | 6 => y + k * x
  | 7 => if y < x then 1 else 0
  | 8 => if (m.get (laneKey sl bank (c.field 12 4 % 512) lane)).getLsbD (lane % 8) then x else y
  | 9 => max x y
  | 10 => min x y
  | 11 => popBits (c.field 8 1) raw
  | 12 => x * (2 ^ sh : Nat)
  | 13 => x.fdiv (2 ^ sh : Nat)
  | 14 => if raw = c.field 12 4 % 2 ^ c.field 8 1 then 1 else 0
  | _ => if lane % 64 = 0 then ((List.range 64).map fun i => at_ (lane + i)).foldl (· + ·) 0 else 0

/-- r narrowed to the rows of Z: modulo 2^wZ, or clamped to its range (R292). -/
def Call.narrow (c : Call) (r : Int) : Nat :=
  let w := c.field 10 1
  let signed := (c.field 11 1).testBit 1
  let lo : Int := if signed then -((2 ^ (w - 1) : Nat) : Int) else 0
  let hi : Int := if signed then ((2 ^ (w - 1) : Nat) : Int) - 1 else ((2 ^ w : Nat) : Int) - 1
  let v := if (c.field 11 1).testBit 0 then (if r < lo then lo else if hi < r then hi else r) else r
  (v % ((2 ^ w : Nat) : Int)).toNat

/-- The microwords of a vendor entry (R293). -/
def vendorWords (c : Call) : Nat :=
  let n := c.field 10 1
  let (wx, wy) := (c.field 8 1, c.field 9 1)
  let p := min wx n
  let q := min wy n
  let m := max wx wy
  let sat := (c.field 11 1).testBit 0
  let kk := if sat then c.k.natAbs else (c.k % ((2 ^ n : Nat) : Int)).toNat
  let mm := ((List.range n).map fun j => if kk.testBit j then 2 * (n - j) else 0).foldl (· + ·) 0
  let extra := if sat then n else 0
  match c.entry.toNat with
  | 0 | 13 => n
  | 1 | 4 | 12 => n + extra
  | 2 | 3 => n + min p q + extra
  | 5 => n + mm + extra
  | 6 => mm + (if c.field 6 2 = c.field 4 2 then 0 else n) + extra
  | 7 => m + min wx wy
  | 14 => wx
  | 8 => 1 + n + min p q + extra
  | 9 | 10 => m + min wx wy + n + min p q + extra
  | 11 => wx + n + extra
  | _ => 19 * n + extra

/-- The microwords of a call in a slice. -/
def Slice.wordsOf (x : Slice) (c : Call) : Nat :=
  if c.entry.toNat < 16 then vendorWords c else Config.extensionWords x.extImage c.entry.toNat c.block

/-- The start word of an entry (R292). -/
def Slice.startOf (x : Slice) (e : Nat) : BitVec 8 :=
  if e < 16 then (Config.vendorStart e).setWidth 8 else match tblGet? x.table e with | some t => t.start | none => 0

/-- A microword of a slice's control store: words 0 to 127 are the vendor's (R292). -/
def Slice.microword (x : Slice) (n : Nat) : List Byte :=
  if n < 128 then Config.vendorMicroword n else (tblGet? x.store n).getD []

/-! ### Rows (R288) -/

/-- The home addresses of a bank's row. -/
def rowKey (sl bank row : Nat) : Nat := sliceKey sl (bank * 2 ^ 18 + row * 512)

/-- The rows of a field of a call's block: its base and its width. -/
def Call.rowsOf (c : Call) (base width : Nat) : List Nat := (List.range (c.field width 1)).map (c.field base 2 + ·)
/-- The rows that a call reads: X, Y, and SELECT's flag row. -/
def Call.inputRows (c : Call) : List Nat :=
  c.rowsOf 2 8 ++ c.rowsOf 4 9 ++ (if c.entry = 8 then [c.field 12 4 % 512] else [])
/-- The rows that a call writes. -/
def Call.outputRows (c : Call) : List Nat := c.rowsOf 6 10

/-- The rows that a call reads, as they stand in memory. -/
def State.captureRows (s : State) (sl : Nat) (c : Call) : Memory :=
  s.mem.filter fun e => (banksOf c.mask).any fun b => c.inputRows.any fun r =>
    rowKey sl b r ≤ e.1 && e.1 < rowKey sl b r + 512

/-- The rows of Z hold unspecified values until the call ends (R292). -/
def State.scrambleRows (s : State) (sl : Nat) (c : Call) : State :=
  ((banksOf c.mask).flatMap fun b => c.outputRows.map fun r => rowKey sl b r).foldl (fun t k =>
    let (v, u) := t.fresh 4096
    { u with mem := u.mem.write k (leBytes 512 v.toNat) }) s

/-- A microword writes one row of Z in the lanes of every bank of the mask, an intermediate value (R292, R306): which of the rows
and what are the firmware's, open values. -/
def State.rewriteRow (s : State) (sl : Nat) (c : Call) : State :=
  let (i, s1) := s.fresh 16
  match c.outputRows[i.toNat % c.outputRows.length]? with
  | none => s1
  | some row => (banksOf c.mask).foldl (fun t b =>
      let (v, u) := t.fresh 4096
      { u with mem := u.mem.write (rowKey sl b row) (leBytes 512 v.toNat) }) s1

/-- The call runs in the pattern of R306: SCALEADD with Z on Y, wrapping, its operands of one width (log entry 133). -/
def Call.rowByRow (c : Call) : Bool :=
  Config.rowByRow && c.entry == 6 && c.field 6 2 == c.field 4 2 && !(c.field 11 1).testBit 0 &&
    c.field 8 1 == c.field 10 1 && c.field 9 1 == c.field 10 1

/-- The pass and the row of Z of each pair of microwords in the pattern of R306: a pass for every bit that K has set, over the rows
of Z from that bit up. -/
def Call.rowPairs (c : Call) : List (Nat × Nat) :=
  let n := c.field 10 1
  ((List.range n).filter (c.k % ((2 ^ n : Nat) : Int)).toNat.testBit).flatMap fun j =>
    (List.range (n - j)).map fun i => (j, j + i)

/-- The 4,096 lanes of a row. -/
def State.rowBits (s : State) (sl b row : Nat) : BitVec 4096 := .ofNat 4096 (s.mem.value (rowKey sl b row) 512)

/-- The bits of which two of three are one. -/
def majority3 (a b c : BitVec 4096) : BitVec 4096 := (a &&& b) ||| (a &&& c) ||| (b &&& c)

/-- A microword of R306 in one bank: the even one reads a row of X into A, and C is cleared by the first of its pass; the odd one
reads a row of Z into B and writes the sum bit there, the carry into C. -/
def State.rowByRowWord (s : State) (sl : Nat) (c : Call) (m b : Nat) : State :=
  match c.rowPairs[m / 2]? with
  | none => s
  | some (j, i) =>
    let x := s.sliceAt sl
    let l := (tblGet? x.latches b).getD {}
    let put (t : State) (l : Latches) : State := t.putSlice sl { x with latches := tblPut x.latches b l }
    if m % 2 = 0 then
      put s { l with a := s.rowBits sl b (c.field 2 2 + (i - j)), c := if i = j then 0 else l.c }
    else
      let z := s.rowBits sl b (c.field 6 2 + i)
      put { s with mem := s.mem.write (rowKey sl b (c.field 6 2 + i)) (leBytes 512 (l.a ^^^ z ^^^ l.c).toNat) }
        { l with b := z, c := majority3 l.a z l.c }

/-- A row write put into rows as they were captured. -/
def RowWrite.into (w : RowWrite) (sl : Nat) (m : Memory) : Memory :=
  w.lanes.foldl (fun m e =>
    let k := laneKey sl w.bank w.row e.1
    let bit : Byte := 1 <<< (e.1 % 8)
    m.set k (if e.2 then m.get k ||| bit else m.get k &&& ~~~bit)) m

/-- The rows that a call reads, each with the first so many of the row writes that reached it (R250). -/
def Run.image (r : Run) (sl : Nat) (upTo : Tbl Nat) : Memory :=
  (r.writes.foldl (fun (acc : Tbl Nat × Memory) w =>
    let row := w.bank * 512 + w.row
    let n := (tblGet? acc.1 row).getD 0
    (tblPut acc.1 row (n + 1), if n < (tblGet? upTo row).getD 0 then w.into sl acc.2 else acc.2)) ([], r.input)).2

/-- How often a vendor entry may read a row: the products by K once for each of its bits, MAX and MIN to compare and to select,
every other entry once (R293; log entry 109). -/
def Call.passes (c : Call) : Nat :=
  match c.entry.toNat with
  | 5 | 6 => 33
  | 9 | 10 => 2
  | _ => 1

/-- The rows as each pass of a call reads them: every row as it was before or after each row write that reached it while the call
ran, which of the two being open, and never older than in the pass before (R250, R296). -/
def State.passImages (sl : Nat) (run : Run) : Nat → State → Tbl Nat → List Memory × State
  | 0, s, _ => ([], s)
  | n + 1, s, upTo =>
    let rows := (run.writes.map fun w => w.bank * 512 + w.row).eraseDups
    let (next, s1) := rows.foldl (fun (acc : Tbl Nat × State) row =>
      let have_ := (tblGet? upTo row).getD 0
      let more := (run.writes.filter fun w => w.bank * 512 + w.row == row).length - have_
      let (v, t) := acc.2.fresh 32
      (tblPut acc.1 row (have_ + v.toNat % (more + 1)), t)) (upTo, s)
    let (ms, s2) := State.passImages sl run n s1 next
    (run.image sl next :: ms, s2)

/-- The r of a vendor entry whose passes read different rows: a product by K takes x as the pass of each bit of K reads it, MAX and
MIN select what their second pass reads. -/
def mixedResult (ms : List Memory) (c : Call) (sl bank lane : Nat) : Int :=
  let m (p : Nat) : Memory := ms[p]?.getD []
  let signed := (c.field 11 1).testBit 1
  let x (p : Nat) : Int := laneInt (m p) sl bank (c.field 2 2) (c.field 8 1) lane signed
  let y (p : Nat) : Int := laneInt (m p) sl bank (c.field 4 2) (c.field 9 1) lane signed
  let r := entryResult (m 0) c sl bank lane
  let sat := (c.field 11 1).testBit 0
  let kk := if sat then c.k.natAbs else (c.k % ((2 ^ c.field 10 1 : Nat) : Int)).toNat
  let unit : Int := if sat && decide (c.k < 0) then -1 else 1
  match c.entry.toNat with
  | 5 | 6 =>
    r + ((List.range 33).map fun j => if kk.testBit j then unit * (2 ^ j : Nat) * (x j - x 0) else 0).foldl (· + ·) 0
  | 9 => if x 0 ≤ y 0 then y 1 else x 1
  | 10 => if x 0 ≤ y 0 then x 1 else y 1
  | _ => r

/-- A value written to the rows of Z in a lane. -/
def State.writeLane (s : State) (sl bank row w lane v : Nat) : State :=
  (List.range w).foldl (fun t i => t.setLane sl bank (row + i) lane (v.testBit i)) s

/-- What a call writes of its r: the flag of CMPGT and MATCH itself, else r narrowed (R292). -/
def Call.written (c : Call) (r : Int) : Nat := if c.entry = 7 || c.entry = 14 then r.toNat else c.narrow r

/-- The results of a call written (R292): of a vendor entry from the rows as it read them (R250); every lane of an extension entry
holds an open value, for the manual does not give its microprogram. -/
def State.writeResults (s : State) (sl : Nat) (run : Run) : State :=
  let c := run.call
  let (ms, s0) := if run.writes.isEmpty then ([], s) else State.passImages sl run c.passes s []
  let r (b l : Nat) : Int := if run.writes.isEmpty then entryResult run.input c sl b l else mixedResult ms c sl b l
  ((banksOf c.mask).flatMap fun b => (List.range 4096).map fun l => (b, l)).foldl (fun t e =>
    if c.entry.toNat < 16 then t.writeLane sl e.1 (c.field 6 2) (c.field 10 1) e.2 (c.written (r e.1 e.2))
    else
      let (v, u) := t.fresh 32
      u.writeLane sl e.1 (c.field 6 2) (c.field 10 1) e.2 v.toNat) s0

/-! ### Calls (R289, R291, R297, R298) -/

/-- The address by which a caller named its slice: S[d] of a frame parked on its BSCALL. -/
def Frame.namedSlice (f : Frame) : Word := f.getS f.parkD

/-- A call's frame, resident or saved. -/
def State.callFrame (s : State) (c : Call) : Frame := (s.contextOf c.waiter).getD {}

/-- The slice answers a BSCALL: 0 to S[d], or ACCESS where a bank is not its partition's in compute mode (R291). -/
def State.answerCall (s : State) (c : Call) (ok : Bool) : State :=
  let f := s.callFrame c
  s.deliver { who := .ctx c.waiter, rk := .raw, d := f.parkD }
    (if ok then {} else { trap := some (6, f.namedSlice) })

/-- A call may enter the queue (R291): there is room, and an install that its slice waits for does not hold it (R367). -/
def State.mayQueue (s : State) (sl : Nat) (c : Call) : Bool :=
  (s.sliceAt sl).queue.length < 16 && !(s.dev.fwLeft.contains sl && 16 ≤ c.entry.toNat)

/-- A call enters the queue, or is refused where a bank is not in compute mode and of its partition. -/
def State.enterCall (s : State) (sl : Nat) (c : Call) : State :=
  let x := s.sliceAt sl
  if (banksOf c.mask).all fun b => s.computeBank sl b c.part then
    (s.putSlice sl { x with queue := x.queue ++ [c] }).answerCall c true
  else s.answerCall c false

/-- Calls that wait in the input queue enter in arrival order as room appears; the number bounds how many. -/
def State.admitCalls : Nat → State → Nat → State
  | 0, s, _ => s
  | n + 1, s, sl =>
    match (s.sliceAt sl).input with
    | [] => s
    | c :: rest =>
      if s.mayQueue sl c then
        State.admitCalls n ((s.putSlice sl { s.sliceAt sl with input := rest }).enterCall sl c) sl
      else s

/-- A counter field names a counter cell, as far as this device can tell (R290; log entry 110). -/
def State.counterCell (s : State) (a : Word) : Bool :=
  match s.cellPlace a 32 {} with
  | .ok (.here k) => s.cellTag k == 1
  | .ok .away => true
  | .error _ => false

/-- BSCALL: the checks of R291, then the frame parks and the call goes to its slice. -/
def execBscall (d a : SReg) (imm : Word) (s : State) : Result :=
  let at_ := s.rs a
  let e := imm.toNat % 64
  .next (if d = 0 then s.illegal
    else match s.padFault at_.toNat 32 32 with
    | some (c, det) => s.trap c at_ det
    | none =>
      let blk := leValue (s.localRead at_.toNat 32)
      let counter : Word := .ofNat 64 (cmdField blk 16 8)
      let u := if counter = 0 then s else s.countersLooked [counter]
      match if counter = 0 then none else s.counterFault counter with
      | some c => u.trap c counter
      | none =>
        match s.sliceAddr? (s.rs d) with
        | none => u.done1 d 9
        | some sl =>
          if !blockOk ((s.sliceAt sl).useOf e) e blk || !s.counterCell counter then u.done1 d 9
          else if !s.fr.complete then u
          else
            let f := s.fr
            let c : Call := { waiter := s.waiterId f.handle, frame := s.cur, part := f.part, asid := f.asid,
                              entry := .ofNat 6 e, block := blk }
            let s1 := u.parkFrame .slice .raw d
            let x := s1.sliceAt sl
            State.admitCalls 1 (s1.putSlice sl { x with input := x.input ++ [c] }) sl)

/-- The record of R298: MORE while VALID stands; cause 4 is recorded and never trapped. -/
def Frame.arrayFault (f : Frame) (sl : Nat) (c : Call) (cause : Nat) : Frame :=
  if f.arrflt.getLsbD 21 then { f with arrflt := f.arrflt ||| (1 <<< 20) }
  else
    { f with
      arrflt := .ofNat 64 (c.entry.toNat + sl % 48 * 2 ^ 6 + sl / 48 * 2 ^ 12 + cause * 2 ^ 16 + 2 ^ 21)
      pendArray := if cause = 4 then f.pendArray else some (.ofNat 64 (c.field 16 8)) }

/-- A call's completion add leaves, with the error mark or without (R250, R297, R299). -/
def State.callAdd (s : State) (sl : Nat) (c : Call) (marks : Nat) : State :=
  s.send (.agentAdd (.ofNat 64 (c.field 16 8)) c.asid 1 marks (some c.waiter) (sliceEndpoint sl)
    (((s.contextOf c.waiter).bind (·.job)).getD 0))

/-- A call completes with the error mark and its caller's record (R297, R298). -/
def State.callFailed (s : State) (sl : Nat) (c : Call) (cause : Nat) : State :=
  let s1 := s.callAdd sl c 1
  if c.orphan then s1 else s1.onContext c.frame (.ofNat 20 (c.waiter % 2 ^ 20)) (·.arrayFault sl c cause)

/-- MOSS_CALL_START: the head of the queue starts, or completes at once where its entry's valid bit is 0 (R291, R292);
no entry is valid while the control store is not READY (R364; log entry 122). A call that has started is no entry of the queue: it
takes up none of the 16 and BSSTAT does not count it (log entry 129). -/
def execMossCallStart (sl : Nat) (s : State) : Result :=
  let x := s.sliceAt sl
  .next (match x.run, x.queue with
    | none, c :: rest =>
      let s1 := s.putSlice sl { x with queue := rest }
      State.admitCalls 16
        (if s.dev.ready.getLsbD 9 && x.extValid.getLsbD c.entry.toNat then
          let run : Run := { call := c, words := x.wordsOf c, input := s.captureRows sl c }
          let s2 := s1.putSlice sl { s1.sliceAt sl with run := some run, served := 0, window := 0, mpc := x.startOf c.entry.toNat }
          if c.rowByRow then s2 else s2.scrambleRows sl c
        else s1.callFailed sl c 2) sl
    | _, _ => s)

/-- The budget of a call in array cycles (R297). -/
def State.budgetOf (s : State) (c : Call) : Nat := if c.field 24 4 = 0 then s.dev.budget.toNat else c.field 24 4

/-- A running call's place replaced. -/
def State.putRun (s : State) (sl : Nat) (r : Option Run) : State := s.putSlice sl { s.sliceAt sl with run := r }

/-- The reply of a BSABORT (R300). -/
def State.abortReply (s : State) (c : Call) (n : Nat) : State :=
  s.deliver { who := .ctx c.waiter, rk := .raw, d := (s.callFrame c).parkD } { value := n }

/-- The running call stops for a BSABORT: its add leaves, cause 4 is recorded, and the reply goes (R300). -/
def State.stopCall (s : State) (sl : Nat) (c : Call) (n : Nat) : State :=
  ((s.putRun sl none).callFailed sl c 4).abortReply c n

/-- The microprogram counter after a microword: an open value within the entry's part of the control store (R292). -/
def State.stepPc (s : State) (sl : Nat) (c : Call) : State :=
  let (pc, s1) := s.fresh 7
  s1.putSlice sl { s1.sliceAt sl with mpc := .ofNat 8 (pc.toNat + if c.entry.toNat < 16 then 0 else 128) }

/-- The microprogram counter and the latches of the call's banks after a microword: the firmware's matter, open values (R288). -/
def State.stepSequencer (s : State) (sl : Nat) (c : Call) : State :=
  (banksOf c.mask).foldl (fun t b =>
    let row (acc : List (BitVec 4096) × State) (_ : Nat) : List (BitVec 4096) × State :=
      let (v, u) := acc.2.fresh 4096
      (acc.1 ++ [v], u)
    let (vs, t1) := (List.range 11).foldl row ([], t)
    let g (i : Nat) : BitVec 4096 := vs[i]?.getD 0
    let x := t1.sliceAt sl
    let l : Latches := { a := g 0, b := g 1, c := g 2, f := g 3, v := g 4, n := Vector.ofFn fun i : Fin 6 => g (5 + i.val) }
    t1.putSlice sl { x with latches := tblPut x.latches b l }) (s.stepPc sl c)

/-- A microword ends at a row boundary (R293): the last one does, and the third since the last boundary at the latest; in the
pattern of R306 every odd one. -/
def Run.boundary (r : Run) : Bool :=
  if r.call.rowByRow then r.issued % 2 = 1
  else Config.rowBoundary r.call.entry.toNat r.issued || r.sinceBoundary = 2 || r.issued + 1 = r.words

/-- What a microword does to the rows and the latches: as R306 has it, or as the firmware does, open values (R292). -/
def State.performWord (s : State) (sl : Nat) (r : Run) : State :=
  if r.call.rowByRow then (banksOf r.call.mask).foldl (fun t b => t.rowByRowWord sl r.call r.issued b) (s.stepPc sl r.call)
  else
    let t := s.stepSequencer sl r.call
    if r.boundary then t.rewriteRow sl r.call else t

/-- A microword is issued (R293, R294): one that ends at a row boundary has written a row, and there the call may stop for an
abort, the rows keeping what they hold (R300). A call that is to be aborted stops at its next boundary although that is its last
microword: it is aborted, with cause 4, and does not complete (log entry 128). -/
def State.issueWord (s : State) (sl : Nat) (r : Run) : State :=
  if r.words ≤ r.issued || s.budgetOf r.call ≤ r.issued then s.putRun sl (some r)
  else
    let r1 := { r with issued := r.issued + 1, sinceBoundary := if r.boundary then 0 else r.sinceBoundary + 1 }
    let s1 := s.performWord sl r
    match r.abort with
    | some n => if r.boundary then s1.stopCall sl r.call n else s1.putRun sl (some r1)
    | none => s1.putRun sl (some r1)

/-- In a suspension the bus serves waiting requests, up to 16, before the row writes (R294 step 3). -/
def Slice.inWindow (x : Slice) : Bool := 0 < x.waiting && x.window < 16 && x.served = 0

/-- The bus may perform a row write: with no call running, or in a suspension after its window, up to four (R294 step 4). -/
def Slice.rowsTurn (x : Slice) : Bool :=
  match x.run with
  | none => true
  | some r => r.suspended && !x.inWindow && x.served < 4

/-- The first row write at a slice performed; a running call that reads the row reads it as it was before or after (R250), one
that cannot be performed leaving the row as it was. -/
def State.serveRow (s : State) (sl : Nat) : State :=
  let x := s.sliceAt sl
  let x1 : Slice := match x.run, x.rows with
    | some r, w :: _ =>
      { x with
        served := x.served + 1
        run := some (if s.performsRow sl w && r.call.mask.testBit w.bank && r.call.inputRows.contains w.row then
            { r with writes := r.writes ++ [w] }
          else r) }
    | _, _ => x
  if x.rowsTurn then (s.putSlice sl x1).performRow sl else s

def execCpytRowWrite (sl : Nat) (s : State) : Result := .next (s.serveRow sl)

/-- A call that stands at a row boundary with something waiting for the bus, and microwords left (R294 step 2). -/
def Slice.mustSuspend (x : Slice) (r : Run) : Bool :=
  0 < r.issued && r.sinceBoundary = 0 && r.issued < r.words && (!x.rows.isEmpty || 0 < x.waiting)

/-- BUS_CYCLE (R294): one command. With no call, a waiting request or row write; in a suspension the requests of its window, then
the row writes, then the call resumes; else the call's next microword, unless it suspends at a row boundary. Cache, scratch and
BSPART accesses take effect at their own events; what waits for the bus are those that the agenda names (log entry 108). -/
def execBusCycle (sl : Nat) (s : State) : Result :=
  let x := s.sliceAt sl
  .next (match x.run with
    | none => if 0 < x.waiting then s.putSlice sl { x with waiting := x.waiting - 1 } else s.serveRow sl
    | some r =>
      let held : Slice := if !r.suspended && x.mustSuspend r then
          { x with run := some { r with suspended := true }, window := 0, served := 0 }
        else x
      if r.suspended || x.mustSuspend r then
        (if held.inWindow then s.putSlice sl { held with waiting := x.waiting - 1, window := held.window + 1 }
         else if !x.rows.isEmpty && held.served < 4 then (s.putSlice sl held).serveRow sl
         else (s.putSlice sl { x with served := 0, window := 0 }).issueWord sl { r with suspended := false })
      else s.issueWord sl r)

/-- MOSS_CALL_COMPLETE: every microword has issued; the results are written, where no microword wrote them (R306), and the add
leaves (R292, R299). -/
def execMossCallComplete (sl : Nat) (s : State) : Result :=
  .next (match (s.sliceAt sl).run with
    | some r =>
      if r.issued < r.words then s
      else (((if r.call.rowByRow then s else s.writeResults sl r).putRun sl none)).callAdd sl r.call 0
    | none => s)

/-- BUDGET_EXPIRY (R297): the sequencer is reset, every compute bank of the slice cleared, and the running and every
queued call completed with the error mark. Where a BSABORT waits for the call's row boundary, the call expires all the same, with
cause 1, and the BSABORT counts only the calls that it took from the queue (log entry 128). -/
def execBudgetExpiry (sl : Nat) (s : State) : Result :=
  let x := s.sliceAt sl
  .next (match x.run with
    | some r =>
      if r.issued < s.budgetOf r.call || r.words ≤ r.issued then s
      else
        let s1 := s.putSlice sl { x with run := none, queue := [], served := 0, window := 0, mpc := 0, latches := [] }
        let s2 := ((List.range 16).filter fun b => x.modeAt b = .compute).foldl (fun t b => t.clearBank sl b) s1
        let s3 := x.queue.foldl (fun t c => t.callFailed sl c 3) (s2.callFailed sl r.call 1)
        let s4 := match r.abort with | some n => s3.abortReply r.call (n - 1) | none => s3
        State.admitCalls 16 s4 sl
    | none => s)

/-! ### Status and abort (R300) -/

/-- The words of BSSTAT. The entry while no call runs is an open value. -/
def State.bsstat (s : State) (sl : Nat) (p : BitVec 6) : (Word × Word) × State :=
  let x := s.sliceAt sl
  let (e, s2) := s.fresh 6
  let sum (f : Nat → Nat) : Nat := ((List.range 16).map f).foldl (· + ·) 0
  let w0 := sum (fun k => (x.modeAt k).code * 4 ^ k) + sum (fun k => (x.ownerAt k == some p).toNat * 2 ^ (32 + k))
  let entry := match x.run with | some r => r.call.entry | none => e
  let susp := match x.run with | some r => r.suspended | none => false
  let w1 := x.mpc.toNat + entry.toNat * 2 ^ 8 + x.run.isSome.toNat * 2 ^ 14 + susp.toNat * 2 ^ 15 +
    x.queue.length * 2 ^ 16 + s.banksHeld p * 2 ^ 32 + (s.part p.toNat).bankQuota.toNat * 2 ^ 44
  ((.ofNat 64 w0, .ofNat 64 w1), s2)

/-- BSSTAT: INVALID at once for anything but a slice address; else the slice's two words. -/
def execBsstat (d a : SReg) (s : State) : Result :=
  .next (match s.sliceAddr? (s.rs a) with
    | none => s.done1 d 9
    | some sl =>
      let s1 := s.parkFrame .slice .raw d
      let (w, s2) := s1.bsstat sl s.fr.part
      s2.deliver { who := s.me, rk := .raw, d := d }
        { value := w.1.toNat, payload := leBytes 8 w.2.toNat })

/-- BSABORT: the context's queued calls leave the queue; its running call stops at its next row boundary, at once when
suspended; the reply follows the last of their adds. -/
def execBsabort (d a : SReg) (s : State) : Result :=
  .next (match s.sliceAddr? (s.rs a) with
    | none => s.done1 d 9
    | some sl =>
      let me := s.waiterId s.fr.handle
      let s1 := s.parkFrame .slice .raw d
      let x := s1.sliceAt sl
      let isMine (c : Call) : Bool := c.waiter == me && !c.orphan
      let mine := x.queue.filter isMine
      let s2 := mine.foldl (fun t c => t.callFailed sl c 4)
        (s1.putSlice sl { x with queue := x.queue.filter (!isMine ·) })
      let n := mine.length
      let s3 :=
        match x.run with
        | some r =>
          if isMine r.call && r.issued < r.words then
            (if r.suspended then s2.stopCall sl r.call (n + 1)
             else s2.putRun sl (some { r with abort := some (n + 1) }))
          else s2.deliver { who := s.me, rk := .raw, d := d } { value := n }
        | none => s2.deliver { who := s.me, rk := .raw, d := d } { value := n }
      State.admitCalls 16 s3 sl)

end Sys2Proof.Machine
end

