-- ==== Sys2Proof/Machine/Control.lean ====
section
/-! DEFINITION. The control region (R208): the capability list (R365), MAPCMD (R235), partitions (R361, R362), the device
registers (R363) and what they start: firmware and attestation (R367, R368), freeze (R369), recording and replay (R370,
R371), the power cap (R372); and bring-up (R364). -/

namespace Sys2Proof.Machine

/-- The address of a page of the firmware's choosing, within capacity. -/
def firmwarePage (n : Nat) : Nat := n % (Config.capacity / 4096) * 4096

/-! ### Firmware images (R366, R367) -/

/-- The function that an image's kind serves (R364, R366; log entry 122): the distributor, the moss control store, the fabric. -/
def kindFunction (kind : Nat) : Option Nat :=
  match kind with
  | 1 => some 4
  | 2 | 3 => some 9
  | 4 => some 5
  | _ => none

/-- The kind of an image. -/
def imageKind (image : List Byte) : Nat := Config.headerKind (image.take 128)

/-- The signature check of R366: the signing key is the one whose hash the fuses hold, and the signature at the image's end is
good for its header and body. -/
def imageSigned (image : List Byte) : Bool :=
  let n := image.length - 96
  let key := Config.signingKey image
  n == 128 + Config.imageBodyLength (image.take 128) && sha384 (keyBytes key) == Config.fusedKeyHash &&
    signatureGood key (image.take n) (image.drop n)

/-- The checks of a kind-3 image before its signature (R367): its kind, the length of its body, at most 128 microwords with the
table entries, and of each entry its start word and its masks. -/
def extensionOk (image : List Byte) : Bool :=
  let n := Config.imageBodyLength (image.take 128)
  let words := n - Config.tableBytes
  imageKind image == 3 && decide (Config.tableBytes ≤ n) && decide (words ≤ 128 * Config.microwordBytes) &&
    words % Config.microwordBytes == 0 &&
    (List.range 48).all fun i =>
      decide (128 ≤ Config.extensionStart image (16 + i)) && decide (Config.extensionStart image (16 + i) ≤ 255) &&
        decide ((Config.extensionUses image (16 + i)).toNat < 32) && decide ((Config.extensionOverlap image (16 + i)).toNat < 8)

/-- The images that the boot ROM has loaded: those that pass the check, in its order (R366). -/
def loadedAtBoot : List (List Byte) := Config.bootImages.filter imageSigned

/-- An image of a function fails the boot ROM's check: it is not loaded, and the function fails (R366). -/
def bootFails (function : Nat) : Bool :=
  Config.bootImages.any fun x => kindFunction (imageKind x) == some function && !imageSigned x

/-- An extension image installed in a slice: the control store from word 128 up and the table's entries 16 to 63 (R367). -/
def Slice.installed (x : Slice) (image : List Byte) : Slice :=
  let entry (e : Nat) : TableEntry :=
    { start := .ofNat 8 (Config.extensionStart image e), uses := (Config.extensionUses image e).setWidth 5
      overlap := (Config.extensionOverlap image e).setWidth 3 }
  { x with
    extImage := image
    table := (List.range 48).map fun i => (16 + i, entry (16 + i))
    store := (List.range 128).map fun i => (128 + i, Config.extensionMicroword image i)
    extValid := (x.extValid &&& 0xFFFF) ||| (Config.extensionValid image &&& ~~~0xFFFF) }

/-- The control store as the boot leaves it: the entries of a vendor image, and the last extension image (R292, R366). -/
def Slice.booted (x : Slice) : Slice :=
  let vendor := loadedAtBoot.any fun i => imageKind i == 2
  let x1 : Slice := { x with extValid := if vendor then 0xFFFF else 0 }
  match (loadedAtBoot.filter extensionOk).getLast? with
  | some i => x1.installed i
  | none => x1

/-! ### The capability list (R365) -/

/-- Count and values of a capability entry. R138 has the capacities of the job queues listed, R365 gives them no place: entry 4 gives
the queues' base alone (log entry 123). -/
def State.capability (s : State) (id : Nat) : Nat × (Nat × (Nat × Nat)) :=
  match id with
  | 0 => (11, 0, 0, 0)
  | 1 => (12, Config.capacity, 0, 0)
  | 2 => ((~~~s.fenced).toNat, 0, 0, 0)
  | 3 => (Config.sliceCount, 0, 0, 0)
  | 4 => (s.master.toNat, 0x010000, 0, 0)
  | 5 => (((List.range 24).map fun i => (s.portAt i).up.toNat * 2 ^ i).foldl (· + ·) 0, s.podDims, s.devNum, 0)
  | 6 => (Config.hostLanes, Config.hostGeneration, s.dev.idle.toNat, 0)
  | 7 => (loadedAtBoot.length + s.dev.measures.length, Config.firmwareVersion.toNat, 0, 0)
  | 8 => (0, firmwarePage Config.certificatePage, firmwarePage Config.reportPage, 0)
  | 9 => let v := (s.sliceAt 0).extValid
         (((List.range 64).filter v.getLsbD).length, v.toNat, 0, 0)
  | _ => (s.dev.traceCount, 0, 0, 0)

/-- The bytes of the capability list, its entries in the order of their IDs. -/
def State.capabilityList (s : State) : List Byte :=
  (List.range 11).flatMap fun id =>
    let (n, a, b, c) := s.capability id
    leBytes 2 id ++ [Config.capabilityVersion id] ++
      leBytes 1 ((s.dev.ready.getLsbD id).toNat + 2 * (s.dev.failed.getLsbD id).toNat) ++ leBytes 4 n ++ leBytes 8 a ++
      leBytes 8 b ++ leBytes 8 c

/-! ### Registers as they read (R235, R361, R363) -/

/-- A register of a partition's record by its offset; none where there is no register. -/
def Partition.reg (x : Partition) (o : Nat) : Option Word :=
  match o with
  | 0x000 => some (.ofNat 64 (x.live.toNat + 2 * x.live.toNat + 4 * x.err.toNat))
  | 0x008 => some (.ofNat 64 (x.weight.toNat + x.guarantee.toNat * 2 ^ 8 + x.ceiling.toNat * 2 ^ 24))
  | 0x010 => some (x.residency.setWidth 64)
  | 0x018 => some (x.bankQuota.setWidth 64)
  | 0x020 => some x.hndbase
  | 0x028 => some x.hnddata
  | 0x030 => some x.refused
  | 0x038 => some x.qstore
  | _ =>
    if 0x040 ≤ o && o < 0x1C0 && o % 8 = 0 then
      (x.levels.toList[(o - 0x040) / 8]?).map fun l =>
        .ofNat 64 (l.quantum.toNat + l.asid.toNat * 2 ^ 32 + l.capacity.toNat * 2 ^ 48)
    else none

/-- A device register by its offset (R363): one that is write-only reads as zero. -/
def State.devReg (s : State) (o : Nat) : Option Word :=
  let d := s.dev
  if 0x008 ≤ o && o < 0x038 then d.k.toList[(o - 8) / 8]?
  else match o with
    | 0x000 => some (.ofNat 64 (d.dims.toNat + d.dev.toNat * 8))
    | 0x040 => some (d.ctxBase ||| d.ctxM.setWidth 64)
    | 0x048 => some d.spillLog2
    | 0x050 => some d.budget
    | 0x058 => some d.timeout
    | 0x060 | 0x068 | 0x070 | 0x0C0 => some 0
    | 0x078 => some (.ofNat 64 (d.freezeReq.toNat + 2 * d.frozen.toNat))
    | 0x080 => some d.readout
    | 0x088 => some d.traceBase
    | 0x090 => some d.traceSize
    | 0x098 => some d.trctl
    | 0x0A0 => some d.powerCap
    | 0x0A8 => some d.hosterr
    | 0x0B0 => some d.asidRoot
    | 0x0B8 => some d.fwimg
    | 0x0C8 => some (.ofNat 64 (d.fwStatus.toNat + d.fwRunning.toNat * 2 ^ 63))
    | 0x0D0 => some d.spillBase
    | _ => none

/-- A MAPCMD register (R235). -/
def MapCmd.reg (m : MapCmd) (o : Nat) : Option Word :=
  match o with
  | 0x00 => some m.op
  | 0x08 => some m.page
  | 0x10 => some m.counter
  | 0x18 => some (.ofNat 64 (m.status.toNat + m.running.toNat * 2 ^ 63))
  | _ => none

/-- The control-region register at an 8-aligned offset, as S reads it; none where R208 names none there. -/
def State.ctlReg (s : State) (off : Nat) : Option Word :=
  if 0x060000 ≤ off && off < 0x060020 then s.mapcmd.reg (off - 0x060000)
  else if 0x080000 ≤ off && off < 0x0C0000 then (s.part ((off - 0x080000) / 0x1000)).reg ((off - 0x080000) % 0x1000)
  else if 0x0C0000 ≤ off && off < 0x0C1000 then s.devReg (off - 0x0C0000)
  else none

/-- A load of `n` bytes of the control region (R208, R255): the capability list in U and S; MAPCMD by LDG.d in S; the
supervisor registers in S. None raises ACCESS. -/
def State.ctlLoad (s : State) (off n : Nat) (inS : Bool) : Option Nat :=
  if off + n ≤ 0x010000 then some (leValue ((s.capabilityList.drop off).take n))
  else if !inS || (off < 0x080000 && n ≠ 8) then none
  else (s.ctlReg (off / 8 * 8)).map fun w => w.toNat / 2 ^ (8 * (off % 8)) % 2 ^ (8 * n)

/-! ### MAPCMD (R235) -/

/-- The size of the page that an OP names, in 64 KiB units. -/
def mapUnits (op : Word) : Nat :=
  match bitsOf op.toNat 5 4 with
  | 0 => 1
  | 1 => 32
  | _ => 16384

/-- The OP and the PAGE that the command has read are within their limits. -/
def MapCmd.valid (m : MapCmd) : Bool :=
  let o := m.curOp.toNat
  (o % 4 = 1 || o % 4 = 2) && bitsOf o 3 2 < 3 && bitsOf o 5 4 < 3 && o < 64 &&
    m.curPage.toNat % (mapUnits m.curOp * 65536) = 0 && m.curPage.toNat < Config.capacity

/-- A 64 KiB unit of device memory refuses a mapping command: an object page with a nonzero tag, or a bound slot page. -/
def State.unitBusy (s : State) (u : Nat) : Bool :=
  match tblGet? s.pages u with
  | some .object => (s.tags.any fun e => e.1 / 2048 == u && e.2 != 0)
  | some .slot => (tblGet? s.bound u).isSome
  | _ => false

/-- A unit's kind recorded, its sector tags at what the kind gives. -/
def State.setUnit (s : State) (k : PageKind) (u : Nat) : State :=
  { s with tags := s.tags.filter (fun e => e.1 / 2048 != u), pages := tblPut s.pages u k }

/-- The running command performed on its page; the status is written with the command's end (R235). -/
def State.mapPages (s : State) (k : PageKind) : State :=
  let m := s.mapcmd
  let us := (List.range (mapUnits m.curOp)).map (m.curPage.toNat / 65536 + ·)
  if us.any s.unitBusy then { s with mapcmd := { m with done := true, outcome := 7 } }
  else
    let s1 := us.foldl (fun t u => t.setUnit k u) s
    { s1 with mapcmd := { m with done := true, outcome := 0 } }

/-- The kind that an OP names. -/
def mapKind (op : Word) : PageKind :=
  match bitsOf op.toNat 3 2 with
  | 1 => .object
  | 2 => .slot
  | _ => .plain

def execMapcmdMap (s : State) : Result :=
  let m := s.mapcmd
  .next (if m.running && !m.done && m.valid && m.curOp.toNat % 4 = 1 then s.mapPages (mapKind m.curOp) else s)

def execMapcmdUnmap (s : State) : Result :=
  let m := s.mapcmd
  .next (if m.running && !m.done && m.valid && m.curOp.toNat % 4 = 2 then s.mapPages .plain else s)

/-- A store to COUNTER starts the command, which reads OP and PAGE; one of the host is held while a command runs (a context's
waits in its group). -/
def State.mapStart (s : State) (a : Word) (asid : BitVec 16) : State :=
  let m := s.mapcmd
  if m.running then { s with mapcmd := { m with held := m.held ++ [(a, asid)] } }
  else
    { s with mapcmd :=
        { m with counter := a, counterAsid := asid, running := true, done := false, curOp := m.op, curPage := m.page } }

/-- MAPCMD_COMPLETE: the status stands and the counter receives its add; a held start follows. -/
def execMapcmdComplete (s : State) : Result :=
  let m := s.mapcmd
  .next (if !m.running || (m.valid && !m.done) then s
    else
      let st : BitVec 8 := if m.valid then m.outcome else 9
      let s1 := ({ s with mapcmd := { m with running := false, done := false, status := st } } : State).send
        (.agentAdd m.counter m.counterAsid 1 (st ≠ 0 : Bool).toNat none (distributorEndpoint s.master.toNat) 0)
      match m.held with
      | [] => s1
      | (a, asid) :: rest => ({ s1 with mapcmd := { s1.mapcmd with held := rest } } : State).mapStart a asid)

/-! ### Partitions (R361, R362) -/

/-- The capacity of a level's queue; 0 means 256. -/
def Level.slots (l : Level) : Nat := if l.capacity = 0 then 256 else l.capacity.toNat
/-- The whole pages of a level's slots. -/
def Level.pages (l : Level) : Nat := (l.slots * 64 + 65535) / 65536

/-- The levels with the first page of each, counted from QSTORE. -/
def levelPages : Nat → Nat → List Level → List (Nat × (Nat × Level))
  | _, _, [] => []
  | i, at_, l :: ls => (i, at_, l) :: levelPages (i + 1) (at_ + l.pages) ls

/-- A refused write sets ERR. -/
def State.partError (s : State) (p : Nat) : State := s.putPart p { s.part p with err := true }

/-- Writing EN = 1 creates the 48 job queues; refused where a page is beyond capacity, bound, or an object page with a
nonzero tag (R362). -/
def State.createPartition (s : State) (p : Nat) : State :=
  let x := s.part p
  let ls := levelPages 0 (x.qstore.toNat / 65536) x.levels.toList
  let us := ls.flatMap fun e => (List.range e.2.2.pages).map (e.2.1 + ·)
  let bad (u : Nat) : Bool :=
    Config.capacity < (u + 1) * 65536 || (tblGet? s.bound u).isSome ||
      (tblGet? s.pages u == some .object && s.unitBusy u)
  if x.live then s
  else if us.any bad then s.partError p
  else
    let s1 := us.foldl (fun t u => t.setUnit .slot u) s
    let queue (t : State) (e : Nat × (Nat × Level)) : State :=
      let key := ctlKey (jobQueueOff p e.1)
      let image := leBytes 2 e.2.2.slots ++ leBytes 1 3 ++ leBytes 13 0 ++ leBytes 8 (e.2.1 * 65536) ++ leBytes 8 0
      (t.homeWrite key image).bindPages key ((List.range e.2.2.pages).map (e.2.1 + ·))
    (ls.foldl queue s1).putPart p { x with live := true }

/-- A partition holds a frame, or a context that is not FREE (R362). -/
def State.partHeld (s : State) (p : Nat) : Bool :=
  (s.frames.any fun e => e.2.status != .empty && e.2.part.toNat == p) ||
  (s.ctxs.any fun e => e.2.state != .free && (match e.2.image with | some f => f.part.toNat == p | none => false))

/-- Writing EN = 0 removes an idle partition (R362). -/
def State.removePartition (s : State) (p : Nat) : State :=
  let keys := (List.range 48).map fun l => ctlKey (jobQueueOff p l)
  if !(s.part p).live then s
  else if s.partHeld p || keys.any (fun k => s.queueOcc k != 0) then s.partError p
  else
    let s1 := keys.foldl (fun t k => (t.stepDestroy k).1) s
    s1.putPart p { s1.part p with live := false }

def execPartitionCreate (p : Nat) (s : State) : Result := .next (if p < 64 then s.createPartition p else s)
def execPartitionRemove (p : Nat) (s : State) : Result := .next (if p < 64 then s.removePartition p else s)

/-- The guarantees of the other partitions, added up. -/
def State.otherGuarantees (s : State) (p : Nat) : Nat :=
  (s.parts.map fun e => if e.1 = p then 0 else e.2.guarantee.toNat).foldl (· + ·) 0

/-- A write to a partition's record (R361, R362); none where there is no register. -/
def State.partWrite (s : State) (p o : Nat) (w : Word) : Option State :=
  let x := s.part p
  let v := w.toNat
  let put (y : Partition) : Option State := some (s.putPart p y)
  let refuse : Option State := some (s.partError p)
  match o with
  | 0x000 =>
    let s1 := if v.testBit 2 then s.putPart p { x with err := false } else s
    some (if v.testBit 0 then s1.createPartition p else s1.removePartition p)
  | 0x008 =>
    let g := bitsOf v 21 8
    let c := bitsOf v 37 24
    if v % 256 = 0 || c < g || 9216 < c || 9216 < s.otherGuarantees p + g then refuse
    else put { x with weight := .ofNat 8 v, guarantee := .ofNat 14 g, ceiling := .ofNat 14 c }
  | 0x010 => put { x with residency := .ofNat 16 v }
  | 0x018 => if 2688 < bitsOf v 11 0 then refuse else put { x with bankQuota := .ofNat 12 v }
  | 0x020 => put { x with hndbase := w }
  | 0x028 => put { x with hnddata := w }
  | 0x030 => some s
  | 0x038 => if (x.live && w ≠ x.qstore) || v % 65536 ≠ 0 then refuse else put { x with qstore := w }
  | _ =>
    if 0x040 ≤ o && o < 0x1C0 && o % 8 = 0 then
      let i := (o - 0x040) / 8
      let l : Level := { quantum := .ofNat 32 v, asid := .ofNat 16 (v / 2 ^ 32), capacity := .ofNat 16 (v / 2 ^ 48) }
      let old := x.levels.toList[i]?.getD {}
      if (x.live && (l.asid ≠ old.asid || l.capacity ≠ old.capacity)) || (l.quantum ≠ 0 && l.quantum.toNat < 1024) then refuse
      else put { x with levels := if h : i < 48 then x.levels.set i l h else x.levels }
    else none

/-! ### What device registers start -/

/-- A fabric port retrained (R340): up again with fresh counts. Ports with index P or more are held down (R336), and every one is
while the fabric is out of service (R364). -/
def State.retrain (s : State) (n : Nat) : State :=
  if !s.dev.ready.getLsbD 5 || s.podDims = 0 || s.groupPorts ≤ n / (2 * s.podDims) || 24 ≤ n then s else s.putPort n { up := true }

def execPortRetrain (port : Nat) (s : State) : Result := .next (s.retrain port)

/-- The core that a core word names (R267); none where it names none. -/
def coreOfWord (w : Word) : Option Nat :=
  let v := w.toNat
  let c := bitsOf v 17 16 * 1024 + bitsOf v 12 8 * 32 + bitsOf v 4 0
  if coreExists c then some c else none

/-- Trace records in the trace buffer, up to one of zeros (R371; log entry 13). -/
def State.readTrace (s : State) : Nat → Nat → List (List Byte)
  | 0, _ => []
  | n + 1, a =>
    let bs := s.mem.read a 16
    if leValue bs = 0 then [] else bs :: s.readTrace n (a + 16)

/-- TRCTL[0] starts recording into an empty buffer (R370). -/
def State.startRecording (s : State) : State :=
  { s with dev := { s.dev with trctl := s.dev.trctl ||| 1, traceCount := 0, traceJob := s.nextJob, traced := [], tracedJobs := [] } }

/-- The cell of a step's record; none of a delivery's or a placement's. -/
def recordCell (b : List Byte) : Option Nat :=
  if leValue (b.take 1) < 0xFD then some (leValue ((b.drop 1).take 6) * 32) else none

/-- TRCTL[2] starts a replay of what the buffer holds (R371). -/
def State.startReplay (s : State) : State :=
  let records := s.readTrace (s.dev.traceSize.toNat / 16) s.dev.traceBase.toNat
  { s with dev := { s.dev with
      trctl := s.dev.trctl ||| 4, traceJob := s.nextJob, traceRecords := records, tracedJobs := []
      traced := (records.filterMap recordCell).eraseDups } }

/-- TRCTL written: its two enables and its two status bits (R370, R371). -/
def State.putTrctl (s : State) (w : Word) : State :=
  let old := s.dev.trctl
  let s1 : State := { s with dev := { s.dev with trctl := w &&& 15 } }
  let s2 := if w.getLsbD 0 && !old.getLsbD 0 then s1.startRecording else s1
  if w.getLsbD 2 && !old.getLsbD 2 then s2.startReplay else s2

def execTraceRecordEnable (s : State) : Result := .next (if s.dev.trctl.getLsbD 0 then s else s.startRecording)
def execReplayEnable (s : State) : Result := .next (if s.dev.trctl.getLsbD 2 then s else s.startReplay)

/-- REPLAY_DIVERGENCE: what the part of the device does that meets an event which the trace lacks (R371); without a replay there
is none. -/
def execReplayDivergence (s : State) : Result := .next (if s.replayOn then s.diverge else s)

/-- REQ = 1 or the freeze pin stops every unit: `step` lets only the host's accesses, the links' beacons and RESUME go on while
FROZEN (R369). -/
def execFreeze (s : State) : Result := .next { s with dev := { s.dev with freezeReq := true, frozen := true } }

/-- REQ = 0 continues every unit from where it stopped (R369). -/
def execResume (s : State) : Result := .next { s with dev := { s.dev with freezeReq := false, frozen := false } }

/-- The read-out window: the state of the frame that read-out select names, in the layout of R320 (R369); the bytes whose format is
the device's are open (log entry 86). -/
def State.readOut (s : State) : List (Nat × List Byte) :=
  match coreOfWord s.dev.readout with
  | none => []
  | some c =>
    let n := c * 4 + bitsOf s.dev.readout.toNat 37 36
    let f := s.frameAt n
    let own (w k at_ : Nat) : Nat × List Byte := (at_, leBytes k (Config.freeValue w s.freeCtr).toNat)
    let running := ((s.coreAt c).tmma.filter fun t => t.frame == n).orElse fun _ => f.replay
    let matrix := if (s.coreAt c).owner = some (.ofNat 2 n) then (s.coreAt c).bankBytes
      else s.mem.read (localKey c (saveArea n)) 0x8000
    (0, leBytes 8 (if f.status = .empty then 0 else (s.ctxAt f.handle.toNat).word)) :: s.recordFields n f ++
      (if f.rep.active then [own 8192 1024 0x800] else []) ++ [(0xC00, s.mem.read (recordArea n) 1024)] ++
      (if f.ownedMatrix then [(0x4000, matrix)] else []) ++
      (match running with
       | some t => [own 512 64 0xC000, (0xC040, t.samples)]
       | none => [])

/-- Idle issue cycles inserted at the temperature limit or the power cap: only the reported fraction shows (R372). -/
def execThermalThrottle (idle : BitVec 16) (s : State) : Result := .next { s with dev := { s.dev with idle := idle } }

/-! ### Firmware and attestation (R366 to R368) -/

/-- A store to FWCNT starts the load, or is held while one runs (R367). -/
def State.firmwareStart (s : State) (a : Word) (asid : BitVec 16) : State :=
  let d := s.dev
  if d.fwRunning then { s with dev := { d with fwHeld := d.fwHeld ++ [(a, asid)] } }
  else { s with dev := { d with fwRunning := true, fwLeft := [], fwcnt := a, fwAsid := asid, fwAddr := d.fwimg } }

/-- The load ends with a status: FWST, the counter's add, and the next held start (R367). -/
def State.firmwareEnd (s : State) (status : Nat) : State :=
  let d := s.dev
  let s1 := ({ s with dev := { d with fwRunning := false, fwLeft := [], fwStatus := .ofNat 8 status } } : State).send
    (.agentAdd d.fwcnt d.fwAsid 1 (decide (status ≠ 0)).toNat none (distributorEndpoint s.master.toNat) 0)
  match d.fwHeld with
  | [] => s1
  | (a, asid) :: rest => ({ s1 with dev := { s1.dev with fwHeld := rest } } : State).firmwareStart a asid

/-- FIRMWARE_LOAD: the image is read and checked; a good one goes on to be installed in every slice (R367). -/
def execFirmwareLoad (s : State) : Result :=
  let d := s.dev
  let at_ := d.fwAddr.toNat
  let n := 128 + Config.imageBodyLength (s.mem.read at_ 128) + 96
  .next (if !d.fwRunning || !d.fwLeft.isEmpty then s
    else if !d.ready.getLsbD 9 then s.firmwareEnd 7
    else if at_ % 32 ≠ 0 || Config.capacity < at_ + n then s.firmwareEnd 9
    else
      let image := s.mem.read at_ n
      let t := s.agentRead controlNode ((List.range ((n + 31) / 32)).map (at_ + 32 * ·))
      if !extensionOk image then t.firmwareEnd 9
      else if !imageSigned image then t.firmwareEnd 15
      else { t with dev := { d with fwLeft := List.range Config.sliceCount, fwImage := image } })

/-- A call of an extension entry is queued or running in a slice (R367). -/
def Slice.extensionBusy (x : Slice) : Bool :=
  let ext (c : Call) : Bool := decide (16 ≤ c.entry.toNat)
  x.queue.any ext || (match x.run with | some r => ext r.call | none => false)

/-- A slice that waits for an install and may have it: no call of an extension entry is queued or running there. -/
def State.mayInstall (s : State) (sl : Nat) : Bool := s.dev.fwLeft.contains sl && !(s.sliceAt sl).extensionBusy

/-- Between calls a slice takes the image, and calls that waited for it enter; with the last slice the image is loaded, and the load
reports OK (R367). -/
def State.install (s : State) (sl : Nat) : State :=
  let d := s.dev
  let left := d.fwLeft.filter (· != sl)
  if !s.mayInstall sl then s
  else
    let s1 := s.putSlice sl ((s.sliceAt sl).installed d.fwImage)
    let s2 := if left.isEmpty then
        ({ s1 with dev := { d with measures := d.measures ++ [sha384 d.fwImage] } } : State).firmwareEnd 0
      else { s1 with dev := { d with fwLeft := left } }
    State.admitCalls 16 s2 sl

/-- CONTROL_STORE_INSTALL: of the slices that the image is still to be installed in, the first that may take it does (R367). A turn of
the agenda names another (`Turn.install`). -/
def execControlStoreInstall (s : State) : Result :=
  .next (match s.dev.fwLeft.find? s.mayInstall with
    | some sl => s.install sl
    | none => s)

/-- A counter of device memory that the host or the device names by its physical address receives an add (R368). -/
def State.physicalAdd (s : State) (a : Nat) : State :=
  if a % 32 = 0 && a < Config.capacity && s.cellTag a = 1 && s.dev.ready.getLsbD 3 then (s.objStep { who := .drain 0 } a (.cntAdd 1 0)).1
  else s.machineCheck 5 0 0 a 0 0

/-- The address of the attestation report. -/
def reportAt : Nat := firmwarePage Config.reportPage

/-- A write of the host at the report address asks for a report once it has written the last byte of the counter's address at +48
(R368; log entry 15). -/
def State.askReport (s : State) (off len : Nat) : State :=
  if off ≤ reportAt + 55 && reportAt + 55 < off + len then { s with dev := { s.dev with attestAsked := true } } else s

/-- What an attestation report says: the nonce, DEV, and the SHA-384 measurement of every loaded image in load order (R368; the
width of DEV is log entry 15). -/
def State.reportBody (s : State) : List Byte :=
  s.mem.read reportAt 48 ++ leBytes 8 s.devNum ++ (loadedAtBoot.map sha384 ++ s.dev.measures).flatMap id

/-- ATTEST_REPORT: a report that the host has asked for is written at the report address, signed with the identity key, and the
counter receives an add (R368); the number that the signer takes for a signature is open. -/
def execAttestReport (s : State) : Result :=
  .next (if !s.dev.attestAsked || !s.dev.ready.getLsbD 8 then s
    else
      let (k, s1) := ({ s with dev := { s.dev with attestAsked := false } } : State).fresh 384
      let sign := signMessage (Config.identityKey % (curveN - 1) + 1) (k.toNat % (curveN - 1) + 1) s.reportBody
      (s1.homeWrite reportAt (s.reportBody ++ sign)).physicalAdd (s.homeValue (reportAt + 48) 8))

/-! ### Device registers written (R363) -/

/-- A write to a device register; none where there is no register. Those that configure a function are ignored once it
is READY, as is a value outside the range of a field for which R363 gives one. For D and DEV at 0x000 it does not say what
a value outside R336's limits does: the model stores them as written (log entry 57). -/
def State.devWrite (s : State) (o : Nat) (w : Word) (asid : BitVec 16) : Option State :=
  let d := s.dev
  let v := w.toNat
  let until_ (id : Nat) (x : DevRegs) : Option State := some (if d.ready.getLsbD id then s else { s with dev := x })
  let put (x : DevRegs) : Option State := some { s with dev := x }
  let base : Word := w &&& 0xFFFFFFFF0000
  if 0x008 ≤ o && o < 0x038 then
    (if o % 8 ≠ 0 then none
     else until_ 5 { d with k := if h : (o - 8) / 8 < 6 then d.k.set ((o - 8) / 8) w h else d.k })
  else match o with
    | 0x000 => until_ 5 { d with dims := .ofNat 3 v, dev := .ofNat 18 (v / 8) }
    | 0x040 => if 10 ≤ v % 32 && v % 32 ≤ 20 then until_ 4 { d with ctxBase := base, ctxM := .ofNat 5 v } else some s
    | 0x048 => if 12 ≤ v && v ≤ 20 then until_ 3 { d with spillLog2 := w } else some s
    | 0x050 => put { d with budget := w }
    | 0x058 => put { d with timeout := w }
    | 0x060 => some (if 0x100 ≤ v && v < 0x104 && !s.fenced.getLsbD (v - 0x100) then s.fenceDie (v - 0x100) else s)
    | 0x068 => some (match coreOfWord w with | some c => s.resetQuad (quadOf c) | none => s)
    | 0x070 => some (s.retrain v)
    | 0x078 => put { d with freezeReq := w.getLsbD 0, frozen := w.getLsbD 0 }
    | 0x080 => put { d with readout := w }
    | 0x088 => put { d with traceBase := w }
    | 0x090 => put { d with traceSize := w }
    | 0x098 => some (s.putTrctl w)
    | 0x0A0 => if 600 ≤ v && v ≤ 2400 then put { d with powerCap := w } else some s
    | 0x0A8 | 0x0C8 => some s
    | 0x0B0 => until_ 4 { d with asidRoot := base }
    | 0x0B8 => put { d with fwimg := w }
    | 0x0C0 => some (s.firmwareStart w asid)
    | 0x0D0 => until_ 3 { d with spillBase := base }
    | _ => none

/-- A write of an 8-byte register of the control region with S rights; none where R208 names none there. -/
def State.ctlWrite (s : State) (off : Nat) (w : Word) (asid : BitVec 16) : Option State :=
  if 0x060000 ≤ off && off < 0x060020 then
    match off - 0x060000 with
    | 0x00 => some { s with mapcmd := { s.mapcmd with op := w } }
    | 0x08 => some { s with mapcmd := { s.mapcmd with page := w } }
    | 0x10 => some (s.mapStart w asid)
    | 0x18 => some s
    | _ => none
  else if 0x080000 ≤ off && off < 0x0C0000 then s.partWrite ((off - 0x080000) / 0x1000) ((off - 0x080000) % 0x1000) w
  else if 0x0C0000 ≤ off && off < 0x0C1000 then s.devWrite (off - 0x0C0000) w asid
  else none

/-- A register's value as a store of some of its bytes completes it: bits that writing 1 clears are 0 in the bytes that the
store does not write (R8); PCTL's ERR is the only one here. -/
def State.ctlOld (s : State) (off : Nat) : Option Word :=
  (s.ctlReg off).map fun w => if 0x080000 ≤ off && off < 0x0C0000 && off % 0x1000 = 0 then w &&& ~~~4 else w

/-- A store of `n` bytes to the control region in S (R208, R255): MAPCMD by STG.d only; of a supervisor register fewer
bytes than eight replace those bytes of it. None raises ACCESS. -/
def State.ctlStore (s : State) (off n : Nat) (data : Word) (inS : Bool) (asid : BitVec 16) : Option State :=
  let at_ := off / 8 * 8
  if !inS || (off < 0x080000 && n ≠ 8) then none
  else
    (s.ctlOld at_).bind fun old =>
      s.ctlWrite at_ (.ofNat 64 (leValue (patch (leBytes 8 old.toNat) (off % 8) (leBytes n data.toNat)))) asid

/-! ### Bring-up (R364) -/

/-- POWER_ON_RESET: the machine right after reset; open values taken from then on are fresh ones. -/
def execPowerOnReset (s : State) : Result := .next { State.reset with freeCtr := s.freeCtr }

/-- A function of the capability list fails and is out of service; with the fabric its ports are down (R336, R364). -/
def State.functionFails (s : State) (id : Nat) : State :=
  let bit : BitVec 16 := 1 <<< id
  let s1 : State := { s with dev := { s.dev with failed := s.dev.failed ||| bit, ready := s.dev.ready &&& ~~~bit } }
  if id = 5 then { s1 with ports := s1.ports.map fun x => { x with up := false } } else s1

/-- A function is READY: with the fabric its ports come up (R336), with the moss control store what the boot ROM has loaded of it
stands in every slice (R292, R366). -/
def State.functionStarts (s : State) (id : Nat) : State :=
  let s1 : State := { s with dev := { s.dev with ready := s.dev.ready ||| (1 <<< id) } }
  if id = 5 then (List.range 24).foldl (fun t n => t.retrain n) s1
  else if id = 9 then (List.range Config.sliceCount).foldl (fun t i => t.putSlice i (t.sliceAt i).booted) s1
  else s1

/-- FUNCTION_READY (R364): a function sets READY once what it depends on is READY, or FAILED where an image of it fails the boot ROM's
check (R366) or, as the operand says, it fails by itself; one that has FAILED stays out of service. -/
def execFunctionReady (id : Nat) (failed : Bool) (s : State) : Result :=
  let d := s.dev
  .next (if 11 ≤ id || d.failed.getLsbD id then s
    else if failed || bootFails id then s.functionFails id
    else if d.ready.getLsbD id || !((List.range 11).all fun o => o == id || !Config.dependsOn id o || d.ready.getLsbD o) then s
    else s.functionStarts id)

end Sys2Proof.Machine
end

