-- ==== Sys2Proof/Machine/GlobalMem.lean ====
section
/-! DEFINITION. Page 4: global loads, stores and atomics (R255 to R259), FENCE (R241, R260), line management (R227, R261,
R262), pinning (R225, R226, R263) and parameter windows (R268). Accesses on this device are performed as their group
issues; those of another device park the frame or take a journal entry (R343); a load
that nothing orders may be left to be performed later (R240). -/

namespace Sys2Proof.Machine

/-! ### Places (R255) -/

/-- The checks of R255 on an access of `n` bytes: the cause of the first that fails, or the place. A posted access to a DEV
beyond the pod's devices is refused through the journal (R344). -/
def State.place (s : State) (ea : Word) (n : Nat) (p : Perm) (posted : Bool := false) : Except Nat Place :=
  let f := s.fr
  let k := keyOf ea
  if !addrForm ea then .error 5
  else if ea.toNat % n ≠ 0 then .error 3
  else if !s.isLocal ea then (if !posted && s.podDevices ≤ devOf ea then .error 5 else .ok .remote)
  else match regionOf k with
    | 0 =>
      match s.region0 s.here f.asid.toNat k (!f.inS) p with
      | .error c => .error c
      | .ok (pa, kind) => if kind = 0 || (kind = 1 && !p.w) then .ok (.mem pa kind) else .error 7
    | 1 =>
      if coreOfKey k = s.here then
        (if !f.inS && 0x60000 ≤ localOfKey k + n - 1 then .error 6 else .ok (.pad (localOfKey k)))
      else .ok (.core k)
    | 2 => .ok (.bank k)
    | _ => .ok (.ctl (k - ctlKey 0))

/-- The checks of R255 for the instructions that act on lines: region 0 only (R255, R261, R263). -/
def State.linePlace (s : State) (ea : Word) (p : Perm) (posted : Bool := false) : Except Nat Place :=
  match s.place ea 1 p posted with
  | .error c => .error c
  | .ok x =>
    match x with
    | .mem pa kind => if kind = 0 then .ok (.mem pa 0) else .error 7
    | .remote => if regionOf (keyOf ea) = 0 then .ok .remote else .error 6
    | _ => .error 6

/-! ### Orders (R238, R242, R243) -/

/-- The scope is quad or wider. -/
def scopeWide (x : Scope) : Bool := x != .core
/-- An acquire that reads at the home and invalidates the L1 (R243). -/
def ordAcquires (o : Ord) : Bool := (o.order == .acquire || o.order == .both) && scopeWide o.scope
/-- A release. -/
def ordReleases (o : Ord) : Bool := o.order == .release || o.order == .both

/-- A release waits for every earlier access of its context and, at scope quad and wider, for its core's stores (R243). -/
def State.releaseWaits (s : State) (o : Ord) : Bool := ordReleases o && !s.releasable (scopeWide o.scope)

/-- A journal entry holds a posted access, not yet acknowledged, to bytes at a home (R238). -/
def JEntry.touches (e : JEntry) (key n : Nat) : Bool :=
  e.busy && !e.refused && (match e.home with
    | some h => if e.kind = 2 then h / 256 == key / 256 else h < key + n && key < h + e.size
    | none => false)

/-- The same for an address of another device. -/
def JEntry.touchesRemote (e : JEntry) (ea : Word) (n : Nat) : Bool :=
  e.busy && !e.refused && e.home.isNone &&
    (if e.kind = 2 then e.addr.toNat / 256 == ea.toNat / 256
     else e.addr.toNat < ea.toNat + n && ea.toNat < e.addr.toNat + e.size)

/-- A posted store of another frame of the core that the frame has read in the L1 is not performed at its home yet (R238, R239). -/
def State.seenPosted (s : State) (key n : Nat) : Bool :=
  s.msgs.any fun m => match m with
    | .posted x => s.fr.seen.contains x.stamp && x.over s.here key n
    | _ => false

/-- An earlier access of the frame to some of the bytes at a home is not complete, or it has read bytes that the home does not hold
yet: a read at the home would go back (R238). -/
def State.overlaps (s : State) (key n : Nat) : Bool :=
  s.fr.journal.toList.any (·.touches key n) || s.seenPosted key n

/-- The posted stores of other frames of the core that a load answered by the L1 reads before their homes perform them are kept in
mind, as long as they are on their way (R238, R239). -/
def State.noteSeen (s : State) (key n : Nat) : State :=
  let mine : List Nat := s.msgs.filterMap fun m => match m with
    | .posted x =>
      if s.fr.seen.contains x.stamp || (x.frame != s.cur && x.over s.here key n) then some x.stamp else none
    | _ => none
  if mine.isEmpty && s.fr.seen.isEmpty then s else s.putFr { s.fr with seen := mine }

/-- The same of an access that its group left to be performed (R240). -/
def State.overlapsLate (s : State) (key n : Nat) : Bool := s.fr.late.any (·.touches key n)

/-- The same for an address of another device. -/
def State.overlapsRemote (s : State) (ea : Word) (n : Nat) : Bool := s.fr.journal.toList.any (·.touchesRemote ea n)

/-- An acquire completes: the whole L1 is invalidated (R237). -/
def State.acquired (s : State) (o : Ord) : State := if ordAcquires o then s.putCo s.co.l1Clear else s

/-! ### Loads (R257) -/

/-- What a load finds: a trap with its detail, a value with the state it leaves, or that it must wait. -/
inductive Loaded where
  | trap (cause detail : Nat)
  | value (v : Nat) (s : State)
  | wait

/-- Bytes read at a home: poisoned, they raise MCHECK with DETAIL 1 (R327). The request crosses to the home and the value back
(R220); a read of device memory fills the line in its home slice (R212). -/
def State.homeLoad (s : State) (key n : Nat) (h : Hint := .normal) : Loaded :=
  if s.overlaps key n then .wait
  else if s.poisoned key n then .trap 0x1F 1
  else
    let t := s.roundTrip (coreNode s.here) (homeNode key) 1 2
    .value (s.homeValue key n) (if regionOf key = 0 then t.touch key h else t)

/-- A load of a plain page: answered by the L1, filled into it, or, an acquire at scope quad or wider or one that bypasses
the L1, performed at the home (R217, R218, R237, R243); a poisoned line of the L1 raises MCHECK (R327). While a posted store of the
core to the line is on its way the fill waits for it; a load performed later than its group then reads the home without a fill (log
entry 102). -/
def State.memLoad (s : State) (pa n : Nat) (o : Ord) (late : Bool := false) : Loaded :=
  if ordAcquires o || o.hint == .bypass then s.homeLoad pa n o.hint
  else match s.co.l1Get pa n with
    | some bs => if s.co.l1Poisoned pa then .trap 0x1F 1 else .value (leValue bs) (s.noteSeen pa n)
    | none =>
      match s.homeLoad pa n o.hint with
      | .value v t =>
        if s.linePosted s.here (pa / 32) then (if late then .value v t else .wait)
        else .value v (t.l1Fill s.here pa (o.hint == .stream))
      | x => x

/-- A load from a place on this device, by a group that ran in S or in U. -/
def State.loadPlace (s : State) (x : Place) (n : Nat) (o : Ord) (inS : Bool) (late : Bool := false) : Loaded :=
  match x with
  | .mem pa kind => if kind = 1 then s.homeLoad pa n o.hint else s.memLoad pa n o late
  | .pad l => s.homeLoad (localKey s.here l) n
  | .core k => if s.exposed (coreOfKey k) (localOfKey k) n true then s.homeLoad k n else .trap 6 0
  | .bank k => if s.scratchBank k s.fr.part then s.homeLoad k n else .trap 6 0
  | .ctl off =>
    match s.ctlLoad off n inS with
    | some v => .value v (s.roundTrip (coreNode s.here) (homeNode (ctlKey off)) 1 2)
    | none => .trap 6 0
  | .remote => .wait

/-- A load performed as its group issues: the value arrives, or it traps, or the group waits. -/
def State.finishLoad (s : State) (d : SReg) (ea : Word) (x : Place) (n : Nat) (signed : Bool) (o : Ord) : State :=
  match s.loadPlace x n o s.fr.inS with
  | .wait => s
  | .trap c det => s.trap c ea det
  | .value v t => (t.acquired o).done1 d (extendTo signed n v)

/-- A packet to another device for a load or an AMO: the frame parks until the answer (R343). An AMO has a stamp among the stores of
its core (R241). -/
def State.remoteLoad (s : State) (ea : Word) (d : SReg) (n : Nat) (signed acq : Bool) (kind : Nat) (payload : List Byte) :
    State :=
  let f := s.fr
  let sep := coreEndpoint s.here
  let (amo, t) : Option Nat × State := if kind = 3 then (some s.stamps, { s with stamps := s.stamps + 1 }) else (none, s)
  ((t.parkFrame (.load ea acq) .raw d).crossed (coreNode s.here) (gatewayNode (ingressOf sep)) 2 false).inject
    { s.packet (devOf ea) sep kind 0 (keyOf ea) payload with size := n } ea (.load s.cur f.handle d n signed amo)

/-- A load that its group leaves to be performed later: one that is no acquire, so that nothing but a dependency, a FENCE or a
release orders it before what follows (R240). The group retires. -/
def State.leaveLoad (s : State) (ea : Word) (x : Place) (d : SReg) (n : Nat) (signed : Bool) (o : Ord) : State :=
  (s.pushLate (match x with
    | .pad l => .pad (.scalar d n signed) [{ ea := ea.toNat, key := localKey s.here l, n := n }]
    | _ => .load ea x d n signed o.hint s.fr.inS)).retire

/-- A load of a place may be left: its checks are made at the core. The home of another core's scratchpad, of slice memory and of the
control region may refuse it, and the frame waits for the reply (R209, R255). -/
def Place.mayWait : Place → Bool
  | .mem _ _ | .pad _ => true
  | _ => false

/-- The home of a place on this device. -/
def State.placeKey (s : State) : Place → Nat
  | .mem pa _ => pa
  | .pad l => localKey s.here l
  | .core k | .bank k => k
  | .ctl off => ctlKey off
  | .remote => 0

/-- LDG and LDGN (R257), and LDPW after its bound (R268). -/
def State.globalLoad (s : State) (d : SReg) (ea : Word) (n : Nat) (signed : Bool) (o : Ord) : Result :=
  .next (match s.place ea n { r := true } with
    | .error c => (s.looked ea n).trap c ea
    | .ok .remote =>
      if s.overlapsRemote ea n then s else s.remoteLoad ea d n signed (ordAcquires o) 0 []
    | .ok x =>
      let u := s.looked ea n
      if s.overlapsLate (s.placeKey x) n then s
      else if s.issue.defer && o.order == .plain && x.mayWait then u.leaveLoad ea x d n signed o
      else u.finishLoad d ea x n signed o)

def execLdg (d a : SReg) (imm : Word) (sz : BitVec 2) (o : Ord) (s : State) : Result :=
  s.globalLoad d (effAddr (s.rs a) imm sz) (2 ^ sz.toNat) true o
def execLdgn (d a : SReg) (imm : Word) (sz : BitVec 2) (o : Ord) (s : State) : Result :=
  s.globalLoad d (effAddr (s.rs a) imm sz) (2 ^ sz.toNat) false o

/-- LDPW (R268): outside the window PWIN with the window's number, else a load at scope core. -/
def execLdpw (d : SReg) (n : BitVec 2) (b : SReg) (sz : BitVec 2) (s : State) : Result :=
  let off := s.rs b
  let size := 2 ^ sz.toNat
  let f := s.fr
  let i : Fin 4 := n.toFin
  let w := f.pws[i].toNat
  if w < size || w - size < off.toNat then .next (s.trap 0x0A off n.toNat)
  else s.globalLoad d (f.pwb[i] + off) size true {}

/-! ### Stores (R244, R257) -/

/-- A store posted: the lowest free journal entry, or the group waits for one. -/
def State.postStore (s : State) (ea : Word) (n : Nat) (data : Word) (sz : BitVec 2) (o : Ord) (home : Nat) (remote : Bool := false) :
    State :=
  match s.fr.freeEntry with
  | none => s
  | some i => (s.post i
      { addr := ea, home := home, size := n, data := .ofNat 64 (data.toNat % 2 ^ (8 * n)), sub := sz, remote := remote
        hint := o.hint, inL1 := !remote && o.hint != .bypass && regionOf home == 0 && s.co.l1.any fun l => l.line == home / 32
        release := if ordReleases o then some (scopeWide o.scope) else none }).retire

/-- A group that has stored to the control region retires, unless what it stored has ended its context. -/
def State.retireAfter (s t : State) : State :=
  if (t.frameAt s.cur).status = .empty then t else t.retire

/-- A store that starts a mapping command or a firmware load is held while one runs (R235, R367). -/
def State.startHeld (s : State) (off : Nat) : Bool :=
  s.fr.inS && (off == 0x060010 && s.mapcmd.running || off == 0x0C00C0 && s.dev.fwRunning)

/-- STG (R244, R257): posted, but for the context's own scratchpad and the control region. A posted release is performed when
R243 lets it (`State.mayPerform`); one that is not posted waits at issue. A store under hint 3 leaves the L1 alone (R218; log
entry 101). -/
def execStg (d a : SReg) (imm : Word) (sz : BitVec 2) (o : Ord) (s : State) : Result :=
  let ea := effAddr (s.rs a) imm sz
  let n := 2 ^ sz.toNat
  let data := s.rs d
  .next (match s.place ea n { w := true } true with
    | .error c => (s.looked ea n).trap c ea
    | .ok x =>
      let u := s.looked ea n
      match x with
        | .mem pa _ =>
          if s.overlapsLate pa n || s.fr.freeEntry.isNone then s
          else (if o.hint == .bypass then u else u.putCo (u.co.l1Put pa (leBytes n data.toNat))).postStore ea n data sz o pa
        | .pad l =>
          if s.releaseWaits o || s.overlapsLate (localKey s.here l) n then s
          else if s.issue.defer && o.order == .plain then (s.leaveStore l (wholeBytes (leBytes n data.toNat))).retire
          else (s.localWrite l (leBytes n data.toNat)).retire
        | .core k => if s.overlapsLate k n then s else s.postStore ea n data sz o k
        | .bank k => if s.overlapsLate k n then s else s.postStore ea n data sz o k
        | .ctl off =>
          if s.releaseWaits o || s.startHeld off || s.overlapsLate (ctlKey off) n then s
          else (match (s.roundTrip (coreNode s.here) (homeNode (ctlKey off)) 2 1).ctlStore off n data s.fr.inS s.fr.asid with
            | some t => s.retireAfter t
            | none => s.trap 6 ea)
        | .remote => s.postStore ea n data sz o 0 true)

/-! ### Atomics (R258, R259) -/

/-- The operations of R258. -/
inductive AmoOp where
  | add | and | or | xor | min | max | minn | maxn | swp | cas
  deriving DecidableEq, Repr

/-- The new value of `w` bits, or none where nothing is written. -/
def AmoOp.apply (op : AmoOp) (w old v cmp : Nat) : Option Nat :=
  let a := BitVec.ofNat w old
  let b := BitVec.ofNat w v
  match op with
  | .add => some (a + b).toNat
  | .and => some (a &&& b).toNat
  | .or => some (a ||| b).toNat
  | .xor => some (a ^^^ b).toNat
  | .min => some (if a.slt b then a else b).toNat
  | .max => some (if a.slt b then b else a).toNat
  | .minn => some (if a.ult b then a else b).toNat
  | .maxn => some (if a.ult b then b else a).toNat
  | .swp => some b.toNat
  | .cas => if a = BitVec.ofNat w cmp then some b.toNat else none

/-- The old value is zero-extended for the unsigned minimum and maximum. -/
def AmoOp.signed : AmoOp → Bool
  | .minn | .maxn => false
  | _ => true

/-- The code of an operation in a packet (log entry 12). -/
def AmoOp.code : AmoOp → Nat
  | .add => 0 | .and => 1 | .or => 2 | .xor => 3 | .min => 4 | .max => 5 | .minn => 6 | .maxn => 7 | .swp => 8 | .cas => 9

/-- The operation of a code. -/
def AmoOp.ofCode : Nat → Option AmoOp
  | 0 => some .add | 1 => some .and | 2 => some .or | 3 => some .xor | 4 => some .min | 5 => some .max | 6 => some .minn
  | 7 => some .maxn | 8 => some .swp | 9 => some .cas
  | _ => none

/-- The indivisible read and write at a home (R259): the old value and the state. One that writes nothing has read its line (R212). -/
def State.amoAt (s : State) (key n : Nat) (op : AmoOp) (v cmp : Nat) : Nat × State :=
  let old := s.homeValue key n
  match op.apply (8 * n) old v cmp with
  | some x => (old, s.homeWrite key (leBytes n x))
  | none => (old, if regionOf key = 0 then s.touch key .normal else s)

/-- Bytes of an operand's size (R258). -/
def amoBytes : AmoSize → Nat
  | .word => 4
  | .dword => 8

/-- The AMO family (R258, R259): the line leaves the L1 at issue; the frame waits for the home. -/
def State.amo (s : State) (op : AmoOp) (sz : AmoSize) (d a b : SReg) (o : Ord) : Result :=
  let ea := s.rs a
  let n := amoBytes sz
  let v := (s.rs b).toNat % 2 ^ (8 * n)
  let cmp := (s.rs d).toNat % 2 ^ (8 * n)
  let at_ (s : State) (key : Nat) : State :=
    match s.homeLoad key n with
    | .wait => s
    | .trap c det => s.trap c ea det
    | .value _ t =>
      let (old, u) := t.amoAt key n op v cmp
      (u.acquired o).done1 d (extendTo op.signed n old)
  .next (match s.place ea n { r := true, w := true } with
    | .error c => (s.looked ea n).trap c ea
    | .ok x =>
      if s.releaseWaits o then s
      else match x with
        | .mem pa _ =>
          let u := s.looked ea n
          if s.overlaps pa n || s.overlapsLate pa n then s else at_ (u.putCo (u.co.l1Drop pa)) pa
        | .pad l => if s.overlapsLate (localKey s.here l) n then s else at_ s (localKey s.here l)
        | .core k =>
          if s.overlapsLate k n then s else if s.exposed (coreOfKey k) (localOfKey k) n true then at_ s k else s.trap 6 ea
        | .bank k => if s.overlapsLate k n then s else if s.scratchBank k s.fr.part then at_ s k else s.trap 6 ea
        | .ctl _ => s.trap 6 ea
        | .remote =>
          if s.overlapsRemote ea n then s
          else s.remoteLoad ea d n op.signed (ordAcquires o) 3
            (leBytes 8 v ++ leBytes 8 cmp ++ leBytes 1 op.code ++ leBytes 1 n ++ leBytes 14 0))

def execAmoadd (asz : AmoSize) (d a b : SReg) (o : Ord) (s : State) : Result := s.amo .add asz d a b o
def execAmoand (asz : AmoSize) (d a b : SReg) (o : Ord) (s : State) : Result := s.amo .and asz d a b o
def execAmoor (asz : AmoSize) (d a b : SReg) (o : Ord) (s : State) : Result := s.amo .or asz d a b o
def execAmoxor (asz : AmoSize) (d a b : SReg) (o : Ord) (s : State) : Result := s.amo .xor asz d a b o
def execAmomin (asz : AmoSize) (d a b : SReg) (o : Ord) (s : State) : Result := s.amo .min asz d a b o
def execAmomax (asz : AmoSize) (d a b : SReg) (o : Ord) (s : State) : Result := s.amo .max asz d a b o
def execAmominn (asz : AmoSize) (d a b : SReg) (o : Ord) (s : State) : Result := s.amo .minn asz d a b o
def execAmomaxn (asz : AmoSize) (d a b : SReg) (o : Ord) (s : State) : Result := s.amo .maxn asz d a b o
def execAmoswp (asz : AmoSize) (d a b : SReg) (o : Ord) (s : State) : Result := s.amo .swp asz d a b o
def execAmocas (asz : AmoSize) (d a b : SReg) (o : Ord) (s : State) : Result := s.amo .cas asz d a b o

/-! ### FENCE (R241, R246, R260) -/

/-- What a FENCE leaves behind in its frame: until when later loads and stores are held, and that the L1 is invalidated
when loads are released (R241). -/
def State.fenceMarks (s : State) (scope : Scope) (kinds : BitVec 4) : State :=
  let f := s.fr
  let k (i : Nat) : Bool := kinds.getLsbD i
  let mark (loads stores : Bool) : FenceMark :=
    { stamp := s.stamps, wide := scopeWide scope, loads := loads, stores := stores }
  ({ s with stamps := s.stamps + 1 } : State).putFr { f with
    fenceLoads := if k 0 || k 2 then f.fenceLoads ++ [mark (k 0) (k 2)] else f.fenceLoads
    fenceStores := if k 1 || k 3 then f.fenceStores ++ [mark (k 1) (k 3)] else f.fenceStores
    fenceClear := f.fenceClear || (scopeWide scope && (k 0 || k 2)) }

/-- FENCE: with RS it retires once URS is 0; the loads and stores that follow wait as its kinds say (`State.heldByFence`), and
what waits for nothing is let go at once. -/
def execFence (rs : Bool) (scope : Scope) (kinds : BitVec 4) (s : State) : Result :=
  .next (if rs && s.fr.urs ≠ 0 then s else ((s.fenceMarks scope kinds).settleFence s.cur).retire)

/-! ### What a frame has left to perform (R224, R240) -/

/-- A late store writes some of the bits that another does: they are performed in program order (R111, R115, R240). -/
def Late.before (x y : Late) : Bool :=
  match x.what, y.what with
  | .store k bs, .store m cs =>
    ((bs.zip (List.range bs.length)).any fun b => (cs.zip (List.range cs.length)).any fun c =>
      k + b.2 == m + c.2 && b.1.2 &&& c.1.2 != 0)
  | _, _ => false

/-- The precise trap of an access performed after its group has retired is taken at that group (log entry 100); of a captured group
the sequencer stands at it (R23). -/
def State.lateTrap (s : State) (n : Nat) (x : Late) (c det : Nat) (val : Word) : State :=
  (match x.rep with
    | some r => s.putFrame n ((s.frameAt n).suspendAt r)
    | none => s).takeTrapIn n c det x.pc val x.len 0

/-- A trap of what a frame has left waits for its repetition to drain, unless the group is of its body (R22). -/
def Frame.lateTrapWaits (f : Frame) (x : Late) : Bool := f.repRunning && x.rep.isNone

/-- The part of a scratchpad load that is read next: the one asked for, else the first that is left. -/
def partToRead (ps : List PadPart) (j : Nat) : Option (Nat × PadPart) :=
  let left := (((List.range ps.length).zip ps).filter fun e => e.2.got.isNone)
  match left.find? (·.1 == j) with
  | some e => some e
  | none => left.head?

/-- The parts of a scratchpad load with one read. -/
def partsRead (ps : List PadPart) (j : Nat) (bs : List Byte) : List PadPart :=
  ((List.range ps.length).zip ps).map fun e => if e.1 = j then { e.2 with got := some bs } else e.2

/-- The `k`-th access that a frame has left is performed: a part of a store reaches the scratchpad; a load takes its value, or
finds it poisoned and traps, or waits; a part of a scratchpad load is read, the last filling its register. -/
def State.performLate (s : State) (n k j : Nat) : State :=
  let f := s.frameAt n
  match f.late[k]? with
  | none => s
  | some x =>
    let s1 := s.putFrame n { f with late := dropNth f.late k }
    match x.what with
    | .store key bs =>
      if (f.late.take k).any (·.before x) then s else (s1.land key bs).settleFences (n / 4)
    | .load ea p d m signed hint inS =>
      match ({ s1 with cur := n } : State).loadPlace p m { hint := hint } inS true with
      | .wait => s
      | .trap c det => if f.lateTrapWaits x then s else (s1.lateTrap n x c det ea).settleFences (n / 4)
      | .value v t =>
        ({ t with cur := s.cur }.putFrame n ((t.frameAt n).setS d (extendTo signed m v))).settleFences (n / 4)
    | .pad dst ps =>
      match partToRead ps j with
      | none => s1
      | some (i, p) =>
        if s.poisoned p.key p.n then
          (if f.lateTrapWaits x then s else (s1.lateTrap n x 0x1F 1 (.ofNat 64 p.ea)).settleFences (n / 4))
        else
          let qs := partsRead ps i (s.mem.read p.key p.n)
          if qs.all (·.got.isSome) then
            (s1.fillPad n dst (qs.flatMap fun q => q.got.getD [])).settleFences (n / 4)
          else
            s.putFrame n { f with late := f.late.take k ++ { x with what := .pad dst qs } :: f.late.drop (k + 1) }

/-! ### Lines (R227, R261, R262) -/

/-- CCLEAN, CINV and CDISC: posted; CINV and CDISC invalidate the issuing core's L1 line. -/
def State.lineGroup (s : State) (a : SReg) (fn : BitVec 2) : Result :=
  let ea := s.rs a
  let p : Perm := if fn = 2 then { w := true } else { r := true }
  .next (match s.linePlace ea p true with
    | .error c => (s.looked ea 1).trap c ea
    | .ok x =>
      match s.fr.freeEntry with
      | none => s
      | some i =>
        let m : Posted := { addr := ea, size := 0, kind := 2, sub := fn }
        match x with
        | .mem pa _ =>
          let u := s.looked ea 1
          if s.overlapsLate (pa / 256 * 256) 256 then s
          else ((if fn = 0 then u else u.putCo (u.co.l1Drop pa)).post i { m with home := pa }).retire
        | _ => (s.post i { m with remote := true }).retire)

def execCclean (a : SReg) (_o : Ord) (s : State) : Result := s.lineGroup a 0
def execCinv (a : SReg) (_o : Ord) (s : State) : Result := s.lineGroup a 1
def execCdisc (a : SReg) (_o : Ord) (s : State) : Result := s.lineGroup a 2

/-- PREF (R262): fills the home line and, unless the hint is 3, the L1 line; it never traps. It acts where a load would pass the
checks of R255, the read permission among them, and does nothing elsewhere (log entry 113), at an address of another device
neither (log entry 125). While a posted store of the core to the line is on its way the L1 line is not filled, and PREF does not wait
(log entry 102); a poisoned line is filled as such (R327). -/
def execPref (a : SReg) (o : Ord) (s : State) : Result :=
  .next (match s.linePlace (s.rs a) { r := true } with
    | .ok (.mem pa _) =>
      let s1 := ((s.looked (s.rs a) 1).roundTrip (coreNode s.here) (homeNode pa) 1 2).touch pa o.hint
      (if o.hint == .bypass || s1.linePosted s.here (pa / 32) then s1
        else s1.l1Fill s.here pa (o.hint == .stream)).retire
    | _ => (s.looked (s.rs a) 1).retire)

/-! ### Pins (R225, R226, R263) -/

/-- A line's pin replaced. -/
def State.setPin (s : State) (line : Nat) (p : Option Nat) : State :=
  { s with lines := s.lines.map fun l => if l.line = line then { l with pin := p } else l }

/-- CPIN: the quota at the core, then the set at the home. A DEV of another device raises ACCESS (log entry 16). -/
def execCpin (d a : SReg) (s : State) : Result :=
  let ea := s.rs a
  let me := s.fr.handle.toNat
  .next (match s.linePlace ea { r := true } with
    | .error c => (s.looked ea 1).trap c ea
    | .ok (.mem pa _) =>
      let s := (s.looked ea 1).roundTrip (coreNode s.here) (homeNode pa) 1 1
      let n := pa / 256
      let charged := (s.lines.filter fun l => l.pin == some me).length
      let pins := (s.lines.filter fun l => l.pin.isSome && sameSet l.line n).length
      if (s.part s.fr.part.toNat).residency.toNat ≤ charged then s.done1 d 2
      else if ((findLine s.lines n).bind (·.pin)).isSome then (s.touch pa .normal).done1 d 0
      else if (s.sliceAt (sliceOfPA pa)).ways - 2 ≤ pins then s.done1 d 1
      else ((s.touch pa .normal).setPin n (some me)).done1 d 0
    | .ok _ => s.trap 6 ea)

/-- CUNPIN: releases the pin that this context holds. -/
def execCunpin (d a : SReg) (s : State) : Result :=
  let ea := s.rs a
  .next (match s.linePlace ea { r := true } with
    | .error c => (s.looked ea 1).trap c ea
    | .ok (.mem pa _) =>
      let s := (s.looked ea 1).roundTrip (coreNode s.here) (homeNode pa) 1 1
      if (findLine s.lines (pa / 256)).bind (·.pin) = some s.fr.handle.toNat then (s.setPin (pa / 256) none).done1 d 0
      else s.done1 d 3
    | .ok _ => s.trap 6 ea)

end Sys2Proof.Machine
end

