-- ==== Sys2Proof/Machine/Fabric.lean ====
section
/-! DEFINITION. The rhizome fabric: links (R340), the receiving side of flows and path failure (R341, R342), admission by
registration windows and what arriving packets do (R343 to R346), and collectives between devices (R351, R352). The places
of fields in payloads are log entry 12. -/

namespace Sys2Proof.Machine

/-! ### Control packets (R339, R341, R342, R344) -/

/-- The payload of an ACK, a refusal, a purge marker and a Purged: the flow (ingress gateway, class, destination), a
range of SEQ, a cause, a path that has failed, and the flow's source where another device's gateway purges for it (R349). -/
structure FlowNote where
  gateway : Nat
  cls : Nat
  dst : Nat
  first : Nat := 0
  last : Nat := 0
  cause : Nat := 0
  path : Option (Nat × Nat) := none
  source : Option Nat := none
  deriving DecidableEq, Repr

/-- The beat that carries a note. -/
def FlowNote.bytes (x : FlowNote) : List Byte :=
  leBytes 1 x.gateway ++ leBytes 1 x.cls ++ leBytes 4 x.dst ++ leBytes 2 x.first ++ leBytes 2 x.last ++ leBytes 1 x.cause ++
    (match x.path with | some (r, p) => [1, .ofNat 8 r, .ofNat 8 p] | none => [0, 0, 0]) ++
    leBytes 4 (match x.source with | some d => d + 1 | none => 0) ++ leBytes 14 0

/-- The note that a beat carries. -/
def FlowNote.ofBytes (b : List Byte) : FlowNote :=
  let g (o n : Nat) : Nat := leValue ((b.drop o).take n)
  { gateway := g 0 1, cls := g 1 1, dst := g 2 4, first := g 6 2, last := g 8 2, cause := g 10 1,
    path := if g 11 1 = 1 then some (g 12 1, g 13 1) else none
    source := if g 14 4 = 0 then none else some (g 14 4 - 1) }

/-- A control packet about a flow, from an endpoint back to the flow's ingress gateway (R341). -/
def State.sendNote (s : State) (kind sep dst : Nat) (x : FlowNote) : State :=
  s.transmit (s.packet dst sep kind 3 (gatewayEndpoint x.gateway) x.bytes)

/-- The note about a packet that has arrived. -/
def packetNote (p : Packet) : FlowNote :=
  { gateway := ingressOf p.sep.toNat, cls := p.cls.toNat, dst := p.dst.toNat, first := p.seq.toNat, last := p.seq.toNat }

/-- The flow endpoint of a packet's flow at its destination, as a source endpoint (R338, R341). -/
def noteEndpoint (src gateway : Nat) : Nat := gatewayEndpoint (flowEndpoint src gateway)

/-- A note about a packet that has arrived, from the flow endpoint of its flow. -/
def State.answerPacket (s : State) (kind : Nat) (p : Packet) (cause : Nat) : State :=
  s.sendNote kind (noteEndpoint p.src.toNat (ingressOf p.sep.toNat)) p.src.toNat { (packetNote p) with cause := cause }

/-- The ACK of a packet (R341). -/
def State.ackPacket (s : State) (p : Packet) : State := s.answerPacket 8 p 0
/-- The refusal of a packet with a cause (R344). -/
def State.refusePacket (s : State) (p : Packet) (cause : Nat) : State := s.answerPacket 9 p cause

/-! ### Admission (R345, R346) -/

/-- A descriptor obeys R345. -/
def windowOk (d : Nat) : Bool :=
  let base := cmdField d 0 8
  let size := cmdField d 8 8
  base < 2 ^ 46 && regionOf base < 3 && 32 ≤ size && size ≤ 2 ^ 39 && size % 32 = 0 &&
    regionOf (base + size - 1) = regionOf base && cmdField d 18 1 < 16 && cmdField d 19 1 = 0 &&
    cmdField d 20 4 ≤ cmdField d 24 4 && cmdField d 24 4 < 131072 && cmdField d 28 4 = 0

/-- The lowest window number that is free: one never used or REVOKED (R346). -/
def State.freeWindow (s : State) : Option Nat :=
  (List.range 256).find? fun n => match tblGet? s.windows n with
    | none => true
    | some w => w.state == .revoked

/-- A range meets a window that is not REVOKED. -/
def State.windowMeets (s : State) (base size : Nat) : Bool :=
  s.windows.any fun e => e.2.state != .revoked && base < e.2.base + e.2.size && e.2.base < base + size

/-- REGWIN: the descriptor is read, and the window becomes ACTIVE in every gateway. -/
def execRegwin (d a : SReg) (s : State) : Result :=
  let at_ := s.rs a
  .next (s.needS fun s =>
    match s.padFault at_.toNat 32 32 with
    | some (c, det) => s.trap c at_ det
    | none =>
      let x := leValue (s.localRead at_.toNat 32)
      let base := cmdField x 0 8
      let size := cmdField x 8 8
      let reply (s : State) (status : Nat) (pay : List Byte) : State :=
        s.deliver { who := s.me, rk := .raw, d := d } { value := status, payload := pay }
      let part := s.fr.part
      let me := s.me
      let s1 := s.parkFrame .slice .raw d
      if !windowOk x then s1.deliver { who := me, rk := .raw, d := d } { value := 9 }
      else if s.windowMeets base size then s1.deliver { who := me, rk := .raw, d := d } { value := 7 }
      else match s.freeWindow with
        | none => s1.deliver { who := me, rk := .raw, d := d } { value := 7 }
        | some n =>
          let w : Window :=
            { base := base, size := size, asid := .ofNat 16 (cmdField x 16 2), perm := .ofNat 4 (cmdField x 18 1),
              srclo := cmdField x 20 4, srchi := cmdField x 24 4, part := part, state := .active }
          reply { s1 with windows := tblPut s1.windows n w } 0 (leBytes 8 n))

/-- A REVOKING window without an access in flight is REVOKED, and its counter receives its add (R345). -/
def State.revoke (s : State) (n : Nat) : State :=
  match tblGet? s.windows n with
  | some w =>
    if w.state = .revoking && w.inflight = 0 then
      ({ s with windows := tblPut s.windows n { w with state := .revoked } } : State).send (.agentAdd w.counter w.cntAsid 1 0 none (gatewayEndpoint 0) 0)
    else s
  | none => s

/-- REVWIN: an ACTIVE window becomes REVOKING in every gateway. -/
def execRevwin (d a b : SReg) (s : State) : Result :=
  let n := (s.rs a).toNat
  let counter := s.rs b
  .next (s.needS fun s =>
    let u := s.countersLooked [counter]
    match s.counterFault counter with
    | some c => u.trap c counter
    | none =>
      let r : Req := { who := s.me, rk := .raw, d := d }
      let asid := s.fr.asid
      let s1 := u.parkFrame .slice .raw d
      match tblGet? s.windows n with
      | some w =>
        if w.state = .active then
          let w1 : Window := { w with state := .revoking, counter := counter, cntAsid := asid }
          (({ s1 with windows := tblPut s1.windows n w1 } : State).deliver r {}).revoke n
        else s1.deliver r { value := 9 }
      | none => s1.deliver r { value := 9 })

def execWindowRevoked (w : Nat) (s : State) : Result := .next (s.revoke w)

/-- The window permission that a packet needs: its bit in PERM. -/
def packetNeed (p : Packet) : Nat :=
  match p.kind.toNat with
  | 0 => 0
  | 2 | 7 | 10 => 1
  | 3 => 2
  | _ => 3

/-- The size code of a store packet (R339). -/
def storeCode (p : Packet) : Nat := leValue ((p.payload.drop 8).take 1)

/-- A line operation's code in a store packet. -/
def packetLineFn (p : Packet) : Option Nat :=
  let c := storeCode p
  if p.kind = 2 && 0x10 ≤ c && c < 0x13 then some (c - 0x10) else none

/-- The place in its t6 group of an element that a store packet carries (log entry 105). -/
def packetSix (p : Packet) : Option Nat :=
  let c := storeCode p
  if p.kind = 2 && 0x18 ≤ c && c < 0x1C then some (c - 0x18) else none

/-- The bytes of a packet's target. -/
def packetExtent (p : Packet) : Nat :=
  match p.kind.toNat with
  | 2 =>
    let c := storeCode p
    if (packetLineFn p).isSome then 256 else if (packetSix p).isSome then 3 else if 0x20 < c && c < 0x40 then c - 0x20 else 2 ^ (c % 4)
  | 3 => if leValue ((p.payload.drop 17).take 1) = 4 then 4 else 8
  | 7 | 10 => p.payload.length
  | 0 => p.size
  | _ => 32

/-- The home of one byte of an admitted access, or the cause that refuses it (R155, R209, R214, R231). -/
def State.arrivedHome (s : State) (w : Window) (t : Nat) (perm : Perm) (object : Bool) : Except Nat Nat :=
  match regionOf t with
  | 0 =>
    match s.region0Agent w.asid.toNat t true perm with
    | .error c => .error c
    | .ok (pa, kind) =>
      if object then (if kind = 1 then .ok pa else .error 7)
      else if kind = 0 || (kind = 1 && !perm.w) then .ok pa else .error 7
  | 1 => if object then .error 7 else if s.exposed (coreOfKey t) (localOfKey t) 1 perm.r then .ok t else .error 6
  | 2 => if object then .error 7 else if s.scratchBank t w.part then .ok t else .error 6
  | _ => .error 6

/-- The first byte of a packet's target: of a line operation its line. -/
def packetStart (p : Packet) : Nat := if (packetLineFn p).isSome then p.target.toNat / 256 * 256 else p.target.toNat

/-- An object request's target is a version cell, 64 bytes (R154): one that makes such a cell or that only it takes, or one whose
address names one under a window's ASID. -/
def State.asksVersion (s : State) (p : Packet) (w : Window) : Bool :=
  let q := packetAsked p
  p.kind == 5 && ((q.code == 0 && q.y == 6) || (0x20 ≤ q.code && q.code < 0x28) ||
    (match s.arrivedHome w p.target.toNat { w := true } true with
     | .ok k => s.cellTag (s.cellOf k) == 6
     | .error _ => false))

/-- A window's range holds every byte of a packet's target (R345). -/
def State.holdsTarget (s : State) (p : Packet) (w : Window) : Bool :=
  if s.asksVersion p w then w.base ≤ p.target.toNat / 64 * 64 && p.target.toNat / 64 * 64 + 64 ≤ w.base + w.size
  else w.base ≤ packetStart p && packetStart p + packetExtent p ≤ w.base + w.size

/-- The window that admits a packet, or none: ACCESS (R345). -/
def State.admitting (s : State) (p : Packet) : Option Nat :=
  match s.windows.find? fun e => e.2.state != .revoked && s.holdsTarget p e.2 with
  | some (n, w) =>
    if w.srclo ≤ p.src.toNat && p.src.toNat ≤ w.srchi && w.perm.toNat.testBit (packetNeed p) && w.state == .active then some n else none
  | none => none

/-- An access enters a window. -/
def State.enterWindow (s : State) (n : Nat) : State :=
  match tblGet? s.windows n with
  | some w => { s with windows := tblPut s.windows n { w with inflight := w.inflight + 1 } }
  | none => s

/-- An access has been performed or refused at its home; the last one of a REVOKING window ends its revocation (R345). -/
def State.leaveWindow (s : State) (n : Nat) : State :=
  match tblGet? s.windows n with
  | some w => ({ s with windows := tblPut s.windows n { w with inflight := w.inflight - 1 } } : State).revoke n
  | none => s

/-! ### Performance at the home (R343, R345) -/

/-- The homes of `n` bytes of an admitted access outside the scratchpads. -/
def State.arrivedBytes (s : State) (w : Window) (t : Nat) (perm : Perm) : Nat → Except Nat (List Nat)
  | 0 => .ok []
  | n + 1 =>
    match s.arrivedHome w t perm false with
    | .error c => .error c
    | .ok k => match s.arrivedBytes w (t + 1) perm n with
      | .error c => .error c
      | .ok ks => .ok (k :: ks)

/-- The homes of `n` bytes of an admitted access: in a scratchpad one window of one frame must hold them all (R209). -/
def State.arrivedHomes (s : State) (w : Window) (t : Nat) (perm : Perm) (n : Nat) : Except Nat (List Nat) :=
  if regionOf t = 1 then
    (if s.exposed (coreOfKey t) (localOfKey t) n perm.r then .ok ((List.range n).map (t + ·)) else .error 6)
  else s.arrivedBytes w t perm n

/-- A reply to another device: its target names the endpoint and the requester's tag (R338). -/
def State.replyPacket (s : State) (p : Packet) (kind tag home : Nat) (bs : List Byte) (bad : Bool) : State :=
  let sep := if regionOf home = 1 then coreEndpoint (coreOfKey home) else sliceEndpoint (cellSlice home)
  let q := s.packet p.src.toNat sep kind 1 (p.sep.toNat + tag * 4096) bs
  (s.crossed (homeNode home) (gatewayNode (ingressOf sep)) 2 true).inject { q with poison := if bad then [0] else [] } 0 .quiet

/-- 32-byte granules of a data packet written, from its gateway over a bulk plane (R221), until one is refused (R348), poisoned ones
with their poison (R327): the state and the cause, if any. -/
def State.placeData (node : Nat) (w : Window) (bad : List Nat) : Nat → Nat → State → Nat → List Byte → State × Option Nat
  | 0, _, s, _, _ => (s, none)
  | n + 1, i, s, t, bs =>
    if bs.isEmpty then (s, none)
    else match s.arrivedHomes w t { w := true } 32 with
      | .error c => (s, some c)
      | .ok ks =>
        let s1 := (s.bulkWrite node ks).scatter ks (bs.take 32)
        State.placeData node w bad n (i + 1) (if bad.contains i then s1.markPoison ((ks.map (· / 32)).eraseDups) else s1) (t + 32)
          (bs.drop 32)

/-- The node of the gateway at which a packet arrives: its flow's endpoint (R341). -/
def arrivalNode (p : Packet) : Nat := gatewayNode (flowEndpoint p.src.toNat (ingressOf p.sep.toNat))

/-- A data packet placed at its final address, as far as no granule is refused (R348): its granules, each an access of its own, all in
one step (log entry 132). -/
def State.placePacket (s : State) (p : Packet) (w : Window) : State × Option Nat :=
  State.placeData (arrivalNode p) w p.poison (p.payload.length / 32) 0 s p.target.toNat p.payload

/-- The bytes that a store packet leaves in place of old ones: its data, or its element merged into a t6 group. -/
def storedBytes (p : Packet) (old : List Byte) : List Byte :=
  match packetSix p with
  | some q => leBytes 3 (leValue old - leValue old / 64 ^ q % 64 * 64 ^ q + leValue (p.payload.take 8) % 64 * 64 ^ q)
  | none => (p.payload.take 8 ++ p.payload.drop 9).take (packetExtent p)

/-- A line operation of another device at its home (R261, R345): on a page that its translation marks as anything but plain it is
refused TYPE. -/
def State.lineArrived (s : State) (node : Nat) (w : Window) (t fn : Nat) : Except Nat State :=
  if regionOf t ≠ 0 then .error 6
  else match s.region0Agent w.asid.toNat t true (if fn = 2 then { w := true } else { r := true }) with
    | .error c => .error c
    | .ok (k, kind) => if kind = 0 then .ok ((s.crossed node (homeNode k) 1 false).lineOp k (.ofNat 2 fn)) else .error 7

/-- An object request at its home (R343): a CNTADD.P answers by its ACK alone, any other by a reply, BUSY or (CNTADD.P) without effect while the function is out
of service (R364; log entry 122). -/
def State.requestArrived (s : State) (p : Packet) (w : Window) (k : Nat) : Except Nat State :=
  let q := packetAsked p
  let agent := q.agent || !coreExists p.sep.toNat
  let rk : ReplyKind := if q.code = 0x14 || q.code = 0x35 then .plain else .withValue
  let r : Req := { who := .remote p.src.toNat p.sep.toNat q.tag q.id agent, rk := rk, addr := .ofNat 64 p.target.toNat
                   lock := if q.code = 0x35 then s.cellAddr k else 0 }
  if q.code = 5 then
    if !s.dev.ready.getLsbD 3 then .ok s
    else match s.objStep r k (.cntAdd (.ofNat 64 q.x) 0) with
      | (s1, some a) => match a.trap with | some (c, _) => .error c.toNat | none => .ok s1
      | (s1, none) => .ok s1
  else if !s.dev.ready.getLsbD 3 then .ok (s.deliver r { status := 7 })
  else match ObjOp.ofWire q.code q.x q.y q.data w.asid with
    | some op => .ok (s.request r k op)
    | none => .ok (s.deliver r { status := 9 })

/-- A packet has crossed the mesh from its flow endpoint's gateway to its home (R220). -/
def State.fromGateway (s : State) (p : Packet) (k : Nat) : State :=
  s.crossed (arrivalNode p) (homeNode k) 2 false

/-- An admitted packet performed at its home, or refused there with a cause (R343 to R345); poisoned memory that it reads is
sent marked as such (R327). -/
def State.performArrived (s : State) (p : Packet) (w : Window) : Except Nat State :=
  let t := p.target.toNat
  let g (o n : Nat) : Nat := leValue ((p.payload.drop o).take n)
  match p.kind.toNat with
  | 0 =>
    match s.arrivedHomes w t { r := true } (max 1 p.size) with
    | .error c => .error c
    | .ok ks =>
      let bs := s.gather ks
      .ok (((s.fromGateway p (ks.headD 0)).readTouched ks).replyPacket p 1 p.seq.toNat (ks.headD 0) (bs ++ List.replicate (32 - bs.length) 0) (s.anyPoison ks))
  | 2 =>
    match packetLineFn p with
    | some fn => s.lineArrived (arrivalNode p) w t fn
    | none =>
      match s.arrivedHomes w t { w := true } (packetExtent p) with
      | .error c => .error c
      | .ok ks =>
        let s1 := (s.fromGateway p (ks.headD 0)).scatter ks (storedBytes p (s.gather ks))
        .ok (if p.poison.isEmpty then s1 else s1.markPoison ((ks.map (· / 32)).eraseDups))
  | 3 =>
    match s.arrivedHome w t { r := true, w := true } false, AmoOp.ofCode (g 16 1) with
    | .error c, _ => .error c
    | .ok k, some op =>
      if s.poison.contains (k / 32) then .ok (s.replyPacket p 4 p.seq.toNat k (leBytes 32 0) true)
      else
        let (old, s1) := (s.fromGateway p k).amoAt k (packetExtent p) op (g 0 8) (g 8 8)
        .ok (s1.replyPacket p 4 p.seq.toNat k (leBytes 32 old) false)
    | .ok _, none => .error 6
  | 5 =>
    match s.arrivedHome w t { w := true } true with
    | .error c => .error c
    | .ok k => s.requestArrived p w k
  | _ =>
    match s.placePacket p w with
    | (s1, none) => .ok s1
    | (_, some c) => .error c

/-- Packets that have been performed, or refused with a cause, at their home: their source is told and they have left their
windows (R341, R344, R345). -/
def State.settlePackets (s : State) (ps : List (Packet × Nat)) (refused : Option Nat) : State :=
  ps.foldl (fun t e => (match refused with | none => t.ackPacket e.1 | some c => t.refusePacket e.1 c).leaveWindow e.2) s

/-- An arrival with a contribution and the combine data that it names (R350): together they go on to the barrier's gateway,
where they are performed; with its data refused the arrival is refused. One that names more beats than its data has is of no
length that a descriptor has (R350). -/
def State.arrivalArrived (s : State) (p : Packet) (n : Nat) (w : Window) : State :=
  let q := packetAsked p
  let r : Req := { who := .remote p.src.toNat p.sep.toNat q.tag q.id (q.agent || q.y.testBit 16), addr := .ofNat 64 p.target.toNat }
  let shape : Option (Nat × (Nat × Nat)) :=
    if q.y.testBit 16 then
      some (leValue (q.data.take 1), (leValue ((q.data.drop 1).take 1), leValue ((q.data.drop 2).take 2)))
    else none
  let data := if q.y % 2 ^ 16 = 0 then some [] else (s.dataFor p).map ([·])
  match data with
  | none => s.settlePackets [(p, n)] (some 6)
  | some ds =>
    let mine (m : Msg) : Bool := match m with | .arrived x v => ds.contains (x, v) | _ => false
    let s1 : State := { s with msgs := s.msgs.filter fun m => !mine m }
    match s.arrivedHome w p.target.toNat { w := true } true with
    | .error c => s1.settlePackets ((p, n) :: ds) (some c)
    | .ok k =>
      let bs := ds.flatMap (·.1.payload)
      s1.send (.combine { r.wait k .arrival 0 (bs ++ List.replicate (32 * (q.y % 2 ^ 16) - bs.length) 0) with coll := true }
        shape ((p, n) :: ds))

/-- An admitted access is translated under its window's ASID and reaches its home: performed or refused, it is no longer in flight, and its source is told (R341,
R344, R345). What a refused data packet has already placed stays. -/
def State.finishArrived (s : State) (p : Packet) (n : Nat) : State :=
  match tblGet? s.windows n with
  | none => s.refusePacket p 6
  | some w =>
    let u := s.spanLooked (arrivalNode p) w.asid (s.cellAddr (packetStart p)) (packetExtent p)
    if isArrival p then u.arrivalArrived p n w
    else match u.performArrived p w with
      | .ok t => t.settlePackets [(p, n)] none
      | .error c =>
        (if p.kind = 7 || p.kind = 10 then (u.placePacket p w).1 else u).settlePackets [(p, n)] (some c)

/-- HOME_STORE_PERFORM: a posted access at its home, having crossed the mesh to it (R220), or one that came from another device.
One whose DEV lies beyond the pod's devices is refused XLATE (R344). -/
def execHomeStorePerform (n : Nat) (s : State) : Result :=
  s.onMsg n fun m => match m with
    | .posted p => some fun s =>
      if p.remote then
        (if s.podDevices ≤ devOf p.addr then s.send (.refusal p.frame p.handle p.entry 5) else s.sendPosted p)
      else match (s.postedTravel p).performPosted p with
        | .ok t => t.send (.ack p.frame p.handle p.entry)
        | .error c => s.send (.refusal p.frame p.handle p.entry (.ofNat 8 c))
    | .arrived p w => some (·.finishArrived p w)
    | _ => none

/-! ### Replies from other devices (R338, R343) -/

/-- What a packet was sent for is answered by a load reply or an AMO reply. -/
def RemoteWhat.loads : RemoteWhat → Bool
  | .load .. | .desc .. | .card .. => true
  | .copy _ _ _ _ write => !write
  | _ => false

/-- What a packet was sent for is answered by an object reply. -/
def RemoteWhat.asks : RemoteWhat → Bool
  | .object _ | .cvRelease .. | .clean _ | .add .. | .settle _ | .refusedAdd _ => true
  | _ => false

/-- The packet sent that a reply answers: by SEQ for loads and AMOs, by tag for object requests. -/
def State.answered (s : State) (p : Packet) : Option Remote :=
  let tag := p.target.toNat / 4096
  let gw := ingressOf (p.target.toNat % 4096)
  s.remotes.find? fun r =>
    r.dst == p.src.toNat &&
      (if p.kind = 6 then r.tag == tag && r.what.asks
       else r.cls == 0 && r.gateway == gw && r.seq.toNat == tag % 2048 && r.what.loads)

/-- The payload of an object reply (log entry 12). -/
def replyData (p : Packet) : List Byte := (p.payload.drop 32).take (leValue ((p.payload.drop 7).take 1))

/-- More packets of an object reply follow (log entry 12). -/
def replyMore (p : Packet) : Bool := (leValue ((p.payload.drop 1).take 1)).testBit 2

/-- The answer that an object reply carries (log entry 12), with the payload of the packets before it. A granted lock that is
not named is the cell asked for. -/
def Remote.answer (r : Remote) (p : Packet) : Answer :=
  let g (o n : Nat) : Nat := leValue ((p.payload.drop o).take n)
  let lock : Word := if g 16 8 = 0 then r.addr else .ofNat 64 (g 16 8)
  { status := g 0 1, value := g 8 8, payload := r.got ++ replyData p, position := g 24 8
    grant := if (g 1 1).testBit 0 then some lock else none
    unlock := if (g 1 1).testBit 1 then some r.addr else none
    trap := if g 2 1 = 0 then none else some (.ofNat 8 (g 2 1), r.addr)
    watch := match g 3 1 with
      | 1 => some (.set r.addr (.ofNat 16 (g 4 2)) (g 6 1 ≠ 0))
      | 2 => some (.raise r.addr (.ofNat 16 (g 4 2)))
      | 3 => some (.clear r.addr)
      | _ => none }

/-- The name by which a moved waiter is told of its lock: where the lock is of the waiter's own device, that device's name for it
(log entry 32), else the condition's. -/
def RemoteReq.lockName (q : RemoteReq) (a : Answer) : Word :=
  match q.who with
  | .remote src _ _ _ _ => if src = devOf q.lock then a.grant.getD q.lock else q.lock
  | _ => q.lock

/-- A request's answer goes to who asked: a moved waiter that finds no lock is answered INVALID (R182). -/
def State.requestAnswered (s : State) (q : RemoteReq) (a : Answer) : State :=
  let q := if q.lock = 0 then q else { q with lock := q.lockName a }
  let a := if q.lock = 0 then a else { a with grant := a.grant.map fun _ => q.lock }
  match a.trap with
  | some (c, _) => if c = 0x1F then s.deliver q.req { a with trap := some (c, q.addr) } else s.requestFailed q c.toNat
  | none => s.deliver q.req a

/-- A copy engine's unit on another device has been answered: its bytes have been read, or it has been written (R278, R343). -/
def State.copyAnswered (s : State) (core id j : Nat) (write : Bool) (bs : List Byte) (bad : Bool) : State :=
  match s.blockById core id with
  | none => s
  | some b =>
    match b.cmd with
    | none => s
    | some x =>
      let u := s.unitNow b x j
      s.putBlock core
        (if write then { b with moved := j :: b.moved, wrote := u.elem :: b.wrote, held := b.held.filter (·.1 != j) }
         else { b with
           held := (j, u.valueOf bs) :: b.held.filter (·.1 != j), tainted := if bad then j :: b.tainted else b.tainted })

/-- A reply has come: its value goes to whoever waits for it, poisoned data as MCHECK to a context (R327). Of a reply in several
packets all but the last are kept. -/
def State.takeAnswer (s : State) (p : Packet) (r : Remote) : State :=
  let gone := { s with remotes := s.remotes.erase r }
  if p.kind = 6 && replyMore p then
    { s with remotes := s.remotes.map fun x => if x = r then { r with got := r.got ++ replyData p } else x }
  else
    let a := r.answer p
    let bytes (n : Nat) : List Byte := p.payload.take n
    let bad := !p.poison.isEmpty
    match r.what with
    | .load f h d n signed _ =>
      if bad then gone.send (.load f h d 0 (some (0x1F, r.addr)))
      else gone.send (.load f h d (extendTo signed n (leValue (bytes n))) none)
    | .object q => gone.requestAnswered q a
    | .cvRelease cell who => if a.trap.isSome then gone.send (.cvFailed cell who) else gone.cvRefused cell who a.status
    | .clean h => gone.send (.cleaned h a.value)
    | .add .. | .settle _ | .refusedAdd _ => if a.trap.isSome then s.remoteFailed r 7 else gone
    | .copy c id j n _ => gone.copyAnswered c id j false (bytes n) bad
    | .desc cell beat =>
      if bad then s.remoteFailed r 0x1F else
      let c := s.combineAt cell
      { gone with combines := tblPut s.combines cell { c with desc := c.desc ++ [(beat, p.payload.take 32)] } }
    | .card cell version beat =>
      if bad then s.remoteFailed r 0x1F else
      { gone with msgs := s.msgs.map fun m => match m with
          | .refire c v card queue asid asked got =>
            if c = cell && v = version then .refire c v card queue asid asked (got ++ [(beat, p.payload.take 32)]) else m
          | _ => m }
    | _ => gone

/-! ### The flow endpoint (R341) -/

/-- A kind belongs to a class (R339). -/
def kindClass (kind cls : Nat) : Bool :=
  match kind with
  | 0 | 2 | 3 | 5 => cls = 0
  | 1 | 4 | 6 => cls = 1
  | 7 | 10 | 11 => cls = 2
  | 8 | 9 | 13 | 14 => cls = 3
  | 12 => cls < 3
  | _ => false

/-- A packet delivered in its turn: a request is admitted and goes on to its home, or is refused; a reply finds its
requester. -/
def State.deliverPacket (s : State) (p : Packet) : State :=
  match p.kind.toNat with
  | 1 | 4 | 6 =>
    let r := s.answered p
    let bulk := match r.map (·.what) with | some (.copy ..) => true | _ => false
    let t := s.crossed (arrivalNode p) (endpointNode (p.target.toNat % 4096)) (if bulk then 1 else 2) true bulk
    (match r with | some r => t.takeAnswer p r | none => t).ackPacket p
  | _ =>
    match s.admitting p with
    | none => s.refusePacket p 6
    | some w => (s.send (.arrived p w)).enterWindow w

/-- What a packet was sent for belongs to a recorded job, or an agent sent it for one (R370). -/
def State.sentRecorded (s : State) (what : RemoteWhat) : Bool :=
  match what with
  | .load n _ _ _ _ _ | .posted n _ _ => s.jobRecorded (s.frameAt n).job
  | .object q => s.recorded q.who
  | .contribution _ who => s.recorded who
  | .data c b _ | .copy c b _ _ _ => s.jobRecorded (s.blockJob c b)
  | .cvRelease _ who => s.recorded (.ctx who)
  | .add _ job => s.jobRecorded (some job)
  | _ => false

/-- A packet belongs to a recorded job (R370): a reply to what this device sent for it; whether a request or data does, of a job at
its source, no field of it tells (log entry 64). -/
def State.packetRecorded (s : State) (p : Packet) : Bool :=
  if p.cls = 1 then (match s.answered p with | some r => s.sentRecorded r.what | none => false)
  else Config.packetRecorded p.src.toNat p.sep.toNat p.cls.toNat p.seq.toNat

/-- The record of a delivery at a flow endpoint: its kind, the endpoint, the class, the source, its ingress gateway and the SEQ
(R370; log entry 13). -/
def flowRecord (p : Packet) : List Byte :=
  let gw := ingressOf p.sep.toNat
  leBytes 1 0xFD ++ leBytes 1 (flowEndpoint p.src.toNat gw) ++ leBytes 1 p.cls.toNat ++ leBytes 3 p.src.toNat ++ leBytes 1 gw ++
    leBytes 2 p.seq.toNat ++ leBytes 7 0

/-- A replay holds a packet of a recorded job at its flow endpoint: the trace delivers it, and another before it (R371). -/
def State.flowHolds (s : State) (p : Packet) : Bool :=
  s.replayOn && s.packetRecorded p && s.dev.traceRecords.contains (flowRecord p) &&
    s.nextTraced ((flowRecord p).take 2) != some (flowRecord p)

/-- A packet delivered, with its place in the trace (R370, R371). -/
def State.deliverTraced (s : State) (p : Packet) : State :=
  let s1 :=
    if !((s.replayOn || s.recording) && s.packetRecorded p) then s
    else if s.recording then s.trace (flowRecord p)
    else if s.dev.traceRecords.contains (flowRecord p) then s.useTraced (flowRecord p)
    else s.diverge
  s1.deliverPacket p

/-- Held packets of a flow delivered while the next SEQ is among them, and no replay holds it. -/
def State.deliverHeld : Nat → State → FlowIn → State
  | 0, s, f => s.putFlowIn f
  | n + 1, s, f =>
    match f.held.find? (·.seq == f.expect) with
    | none => s.putFlowIn f
    | some p =>
      if s.flowHolds p then s.putFlowIn f
      else State.deliverHeld n (s.deliverTraced p) { f with expect := f.expect + 1, held := f.held.filter (·.seq != f.expect) }

/-- The delivered packets of a class-2 flow drawn together: SEQ below `expect` have all been delivered. -/
def FlowIn.settle : Nat → FlowIn → FlowIn
  | 0, f => f
  | n + 1, f =>
    if f.seen.contains f.expect then FlowIn.settle n { f with expect := f.expect + 1, seen := f.seen.filter (· != f.expect) }
    else f

/-- A class-2 packet delivered, in whatever order it comes. -/
def State.deliverData (s : State) (p : Packet) (f : FlowIn) : State :=
  (s.deliverTraced p).putFlowIn (FlowIn.settle 1024 { f with seen := p.seq :: f.seen })

/-- Packets of a class-2 flow that a replay has held, delivered once it holds them no longer. -/
def State.deliverHeldData : Nat → State → FlowIn → State
  | 0, s, _ => s
  | n + 1, s, f =>
    match f.held.find? fun p => !s.flowHolds p with
    | none => s
    | some p =>
      let t := s.deliverData p { f with held := f.held.filter (· != p) }
      State.deliverHeldData n t (t.flowIn f.src f.gateway f.cls)

/-- The flows' held packets that a replay no longer holds, delivered. -/
def State.drainFlows : Nat → State → State
  | 0, s => s
  | n + 1, s =>
    State.drainFlows n (s.flowsIn.foldl (fun t f =>
      let g := t.flowIn f.src f.gateway f.cls
      if f.cls = 2 then State.deliverHeldData 1024 t g else State.deliverHeld 1024 t g) s)

/-- A packet of a flow reaches its flow endpoint (R341): in SEQ order for classes 0 and 1, early ones held; as it arrives for
class 2, unless a replay holds it (R371); one already delivered is discarded and its ACK sent again. -/
def State.arriveFlow (s : State) (p : Packet) : State :=
  let f := s.flowIn p.src.toNat (ingressOf p.sep.toNat) p.cls.toNat
  if f.delivered p.seq then s.ackPacket p
  else if f.held.any (·.seq == p.seq) then s
  else if s.flowHolds p || (p.cls ≠ 2 && p.seq ≠ f.expect) then s.putFlowIn { f with held := p :: f.held }
  else
    let t := if p.cls = 2 then s.deliverData p f else State.deliverHeld 1024 (s.deliverTraced p) { f with expect := f.expect + 1 }
    if t.replayOn then State.drainFlows t.flowsIn.length t else t

/-! ### The ingress gateway (R341, R342, R344) -/

/-- A SEQ lies in a range that starts at another, modulo 2^11. -/
def seqIn (first last : Nat) (q : BitVec 11) : Bool := (q - .ofNat 11 first).toNat ≤ (BitVec.ofNat 11 last - .ofNat 11 first).toNat

/-- What a packet was sent for is done with its ACK: a posted access, data, a store of a copy engine; others await their
replies. -/
def RemoteWhat.ackDone : RemoteWhat → Bool
  | .posted .. | .data .. | .contribution .. | .quiet => true
  | .copy _ _ _ _ write => write
  | _ => false

/-- An ACK frees the gateway's copies: a posted access is acknowledged, a data packet is done. The flow then sends on. -/
def State.takeAck (s : State) (x : FlowNote) : State :=
  match s.flowOut? x.gateway x.dst x.cls with
  | none => s
  | some f =>
    let mine (r : Remote) : Bool := r.gateway == x.gateway && r.dst == x.dst && r.cls == x.cls && seqIn x.first x.last r.seq &&
      f.unacked.any (·.seq == r.seq) && r.what.ackDone
    let s1 := { s with remotes := s.remotes.filter fun r => !mine r }
    let s2 := (s.remotes.filter mine).foldl (fun t r => match r.what with
      | .posted n h e => t.send (.ack n h e)
      | .copy c id j _ _ => t.copyAnswered c id j true [] false
      | _ => t) s1
    State.pump 1024 (s2.putFlowOut { f with unacked := f.unacked.filter fun p => !seqIn x.first x.last p.seq })
      x.gateway x.dst x.cls

/-- The device at the other end of a port (R336). -/
def State.neighbour (s : State) (n : Nat) : Nat :=
  let g := n % (2 * s.podDims)
  let i := g / 2
  let k := s.podSize i
  let c := s.coordOf s.devNum i
  s.devNum - c * s.podStride i + (c + (if g % 2 = 0 then 1 else k - 1)) % k * s.podStride i

/-- A marker goes on from this device along a path of its flow, behind the flow's packets; where the next port has failed, to the
path's next device by another working path (R342). -/
def State.sendMarker (s : State) (m : Packet) (dst rot port : Nat) : State :=
  match s.portFor dst rot port with
  | none => s
  | some n =>
    if s.portWorks n then s.transmitOn n { m with dst := .ofNat 18 dst, rot := .ofNat 3 rot, port := .ofNat 4 port }
    else
      let v := s.neighbour n
      match (s.pathsFrom rot port).find? (s.pathWorks v) with
      | some (r, q) => s.transmit { m with dst := .ofNat 18 v, rot := .ofNat 3 r, port := .ofNat 4 q }
      | none => s

/-- The purge marker of a flow for a path (R342): its note names the flow and the path. -/
def State.markerFor (s : State) (f : FlowOut) (rot port : Nat) : Packet :=
  let note : FlowNote := { gateway := f.gateway, cls := f.cls, dst := f.dst, path := some (rot, port) }
  s.packet f.dst (gatewayEndpoint f.gateway) 12 f.cls 0 note.bytes

/-- A packet without the copies of a flow that a marker purges on a path; none where nothing of it is left. A multicast packet
loses the member. -/
def purged (src : BitVec 18) (x : FlowNote) (path : Nat × Nat) (p : Packet) : Option Packet :=
  let flow := p.kind != 12 && p.src == src && p.cls.toNat == x.cls && ingressOf p.sep.toNat == x.gateway &&
    p.rot.toNat == path.1 && p.port.toNat == path.2
  if !flow then some p
  else if p.members.isEmpty then (if p.dst.toNat == x.dst then none else some p)
  else
    let ms := p.members.filter (·.1 != x.dst)
    if ms.isEmpty then none else some { p with members := ms }

/-- The packets of a flow that the gateways hold for a path are dropped (R342). Those that a link has numbered stay in its stream:
they come to the next gateway before the marker does. -/
def State.dropFlow (s : State) (src : BitVec 18) (x : FlowNote) (path : Nat × Nat) : State :=
  let keep := purged src x path
  { s with
    ports := s.ports.map fun q => { q with waiting := q.waiting.filterMap keep }
    msgs := s.msgs.filterMap fun m => match m with
      | .fork p o g => if o.isSome then some m else (keep p).map fun q => .fork q o g
      | .branch p g => (keep p).map fun q => .branch q g
      | _ => some m }

/-- A path declared failed for a flow: what its gateway still holds for the path is dropped, and a purge marker follows the flow's
packets along it (R342). -/
def State.failPath (s : State) (f : FlowOut) (rot port : Nat) : State :=
  let s1 := s.putFlowOut { f with failedPorts := pathCode rot port :: f.failedPorts, purging := true, marked := [] }
  (s1.dropFlow s.dev.dev { gateway := f.gateway, cls := f.cls, dst := f.dst } (rot, port)).sendMarker
    (s.markerFor f rot port) f.dst rot port

/-- A refusal: of a packet with a cause, which ends what sent it; or naming a path whose port has failed. -/
def State.takeRefusal (s : State) (x : FlowNote) : State :=
  match s.flowOut? x.gateway x.dst x.cls with
  | none => s
  | some f =>
    match x.path with
    | some (r, q) => if f.purging || f.unreachable then s else s.failPath f r q
    | none =>
      let s1 := s.putFlowOut { f with unacked := f.unacked.filter fun p => p.seq.toNat != x.first }
      let s2 := match s.remotes.find? fun r =>
          r.gateway == x.gateway && r.dst == x.dst && r.cls == x.cls && r.seq.toNat == x.first with
        | some r => s1.remoteFailed r x.cause
        | none => s1
      State.pump 1024 s2 x.gateway x.dst x.cls

/-- END_TO_END_TIMEOUT: the path of a flow's oldest unacknowledged packet has failed (R342). -/
def execEndToEndTimeout (n : Nat) (s : State) : Result :=
  .next (match s.flowsOut[n]? with
    | some f =>
      match f.unacked with
      | p :: _ => if f.purging || f.unreachable then s else s.failPath f p.rot.toNat p.port.toNat
      | [] => s
    | none => s)

/-- A destination is unreachable for a flow: everything that waits on it fails (R342, R344). A request that its home has
accepted stays parked there. -/
def State.unreachable (s : State) (f : FlowOut) : State :=
  let s1 := s.putFlowOut { f with unreachable := true, purging := false, unacked := [], queued := [] }
  let lost := s.remotes.filter fun r => r.gateway == f.gateway && r.dst == f.dst && r.cls == f.cls &&
    (f.unacked ++ f.queued).any (·.seq == r.seq)
  lost.foldl (fun t r => t.remoteFailed r 0x13) s1

/-- PURGED at the gateway above a failed branch: the packets of the flow that it holds for the member go to the member alone, with
RTX, by a path that works from here; where there is none, their source is told (R342, R349). -/
def State.branchPurged (s : State) (src : Nat) (x : FlowNote) : State :=
  let mine (p : Packet) : Option (BitVec 11) :=
    if p.src.toNat = src && ingressOf p.sep.toNat = x.gateway && p.cls.toNat = x.cls then (p.members.find? (·.1 == x.dst)).map (·.2)
    else none
  let held := s.msgs.filterMap fun m => match m with | .branch p _ => (mine p).map fun q => (p, q) | _ => none
  let s1 : State := { s with msgs := s.msgs.filterMap fun m => match m with
    | .branch p g =>
      let ms := if (mine p).isSome then p.members.filter (·.1 != x.dst) else p.members
      if ms.isEmpty then none else some (.branch { p with members := ms } g)
    | _ => some m }
  held.foldl (fun t e =>
    let p := e.1
    match (t.pathsFrom p.rot.toNat p.port.toNat).find? (s.pathWorks x.dst) with
    | some (r, k) =>
      t.transmit { p with dst := .ofNat 18 x.dst, seq := e.2, members := [], mc := false, rtx := true, rot := .ofNat 3 r,
                          port := .ofNat 4 k }
    | none => t.sendNote 9 (noteEndpoint src x.gateway) src { x with source := none, path := some (p.rot.toNat, p.port.toNat) }) s1

/-- PURGED: every packet above the SEQ delivered is sent again with RTX on the next path; with none left the destination
is unreachable (R342). A multicast packet is sent again to the member alone (R349). -/
def State.takePurged (s : State) (x : FlowNote) : State :=
  if let some src := x.source then s.branchPurged src x
  else match s.flowOut? x.gateway x.dst x.cls with
  | none => s
  | some f =>
    if !f.purging then s
    else
      let above (p : Packet) : Bool := (p.seq - .ofNat 11 x.last).toNat - 1 < 1024 && p.seq.toNat ≠ x.last
      let again := (f.unacked.filter above).map fun p => { p with rtx := true }
      if (f.unacked ++ f.queued).any fun p => (s.onPath f p true).isNone then s.unreachable f
      else
        let moved := again.filterMap (s.onPath f · true)
        let s1 := s.putFlowOut { f with
          purging := false, marked := []
          unacked := f.unacked.map fun p => (moved.find? (·.seq == p.seq)).getD p }
        State.pump 1024 (moved.foldl (fun t p => t.transmit p) s1) x.gateway x.dst x.cls

/-- PURGE_TIMEOUT: no Purged has come. A marker is sent on every path that remains; after those the destination is unreachable
(R342). -/
def execPurgeTimeout (n : Nat) (s : State) : Result :=
  .next (match s.flowsOut[n]? with
    | some f =>
      let rest := (s.pathsFrom 0 0).filter fun e => !f.failedPorts.contains (pathCode e.1 e.2)
      let left := rest.filter fun e => !f.marked.contains (pathCode e.1 e.2)
      if !f.purging then s
      else if left.isEmpty then s.unreachable f
      else
        left.foldl (fun t e => t.sendMarker (s.markerFor f e.1 e.2) f.dst e.1 e.2)
          (s.putFlowOut { f with marked := rest.map fun e => pathCode e.1 e.2 })
    | none => s)

/-! ### Purge markers on their way (R342, R349) -/

/-- PURGE_MARKER: at the flow endpoint it is answered Purged with the highest SEQ delivered in order; at a gateway that it
reaches on the way it drops the flow's packets and goes on along its path (R342). On a detour it passes through. -/
def State.takeMarker (s : State) (p : Packet) : State :=
  let x := FlowNote.ofBytes p.payload
  let path := x.path.getD (p.rot.toNat, p.port.toNat)
  let src := x.source.getD p.src.toNat
  if x.dst = s.devNum then
    let f := s.flowIn src x.gateway x.cls
    (s.putFlowIn { f with held := [] }).sendNote 13 (noteEndpoint src x.gateway) p.src.toNat
      { x with last := (f.expect - 1).toNat }
  else if p.dst ≠ s.dev.dev && p.dst.toNat ≠ x.dst then s.transmit p
  else (s.dropFlow (.ofNat 18 src) x path).sendMarker p x.dst path.1 path.2

/-! ### Arrival at the flow endpoint (R338 to R342) -/

/-- The gateway that serves as flow endpoint counts a packet that it discards (R339). -/
def State.countError (s : State) (p : Packet) : State :=
  let g := flowEndpoint p.src.toNat (ingressOf p.sep.toNat)
  { s with dev := { s.dev with gatewayErrors := tblPut s.dev.gatewayErrors g ((tblGet? s.dev.gatewayErrors g).getD 0 + 1) } }

/-- A packet for this device at its flow endpoint: with an error tail it is discarded (R340); of a kind in another class than its
own it is discarded and counted (R339); else it is taken. -/
def State.arrive (s : State) (p : Packet) : State :=
  if p.trailer.errorTail then s
  else if !kindClass p.kind.toNat p.cls.toNat then s.countError p
  else match p.kind.toNat with
    | 8 => s.takeAck (FlowNote.ofBytes p.payload)
    | 9 => s.takeRefusal (FlowNote.ofBytes p.payload)
    | 12 => s.takeMarker p
    | 13 => s.takePurged (FlowNote.ofBytes p.payload)
    | 14 => s
    | _ => s.arriveFlow p

/-- A packet of one kind, for this device, at its flow endpoint. -/
def State.arriveKind (s : State) (kind : Nat) (p : Packet) : Result :=
  .next (if p.kind.toNat = kind && p.dst = s.dev.dev then s.arrive p else s)

def execFabricPacketArrival (p : Packet) (s : State) : Result :=
  .next (if p.dst = s.dev.dev then s.arrive p else s)
def execFabricAck (p : Packet) (s : State) : Result := s.arriveKind 8 p
def execFabricRefusal (p : Packet) (s : State) : Result := s.arriveKind 9 p
def execPurged (p : Packet) (s : State) : Result := s.arriveKind 13 p
def execPurgeMarker (p : Packet) (s : State) : Result :=
  .next (if p.kind = 12 && p.cls ≠ 3 && !p.trailer.errorTail then s.takeMarker p else s)

/-! ### Links (R340) -/

/-- A multicast packet of another device that cannot leave by a failed port: this gateway, above the failed branch, holds it and
sends a purge marker for each member's flow along the branch (R342, R349). -/
def State.branchLost (s : State) (n : Nat) (p : Packet) : State :=
  let rot := p.rot.toNat
  let port := p.port.toNat
  p.members.foldl (fun t m =>
    let note : FlowNote := { (packetNote p) with dst := m.1, path := some (rot, port), source := some p.src.toNat }
    t.sendMarker (t.packet m.1 (gatewayEndpoint n) 12 p.cls.toNat 0 note.bytes) m.1 rot port) (s.send (.branch p n))

/-- A packet that cannot leave by a failed port: its source is told which path has failed; a multicast packet of another device is
purged and sent again from here; a marker takes another way (R342, R349). -/
def State.pathLost (s : State) (n : Nat) (p : Packet) : State :=
  let note (dst : Nat) : FlowNote := { (packetNote p) with dst := dst, path := some (p.rot.toNat, p.port.toNat) }
  let tell (s : State) (dst : Nat) : State :=
    if p.src = s.dev.dev then s.takeRefusal (note dst) else s.sendNote 9 (gatewayEndpoint n) p.src.toNat (note dst)
  if p.cls = 3 then s
  else if p.kind = 12 then s.takeMarker p
  else if p.members.isEmpty then tell s p.dst.toNat
  else if p.src ≠ s.dev.dev then s.branchLost n p
  else p.members.foldl (fun t m => tell t m.1) s

/-- A port declared failed: what it held and everything that reaches it afterwards is discarded (R340). -/
def State.failPort (s : State) (n : Nat) : State :=
  let x := s.portAt n
  if !x.up then s
  else
    let s1 := s.putPort n { x with up := false, failed := true, outQueue := [], replayBuffer := [], waiting := [] }
    (x.replayBuffer.map (·.2) ++ x.waiting).foldl (·.pathLost n) s1

/-- A link-control packet of a port: the replay request and the beacon carry LACK and the slot counts, in their trailer too; it
takes no LSEQ of its own (R222, R340; log entry 12). -/
def State.linkControl (s : State) (n : Nat) (beacon : Bool) : State :=
  let x := s.portAt n
  let p := s.packet 0 (gatewayEndpoint n) 14 3 0
    (leBytes 1 beacon.toNat ++ leBytes 2 x.lack.toNat ++ x.freed.toList.flatMap (fun c => leBytes 2 c.toNat) ++ leBytes 21 0)
  if x.up then
    s.putPort n { x with outQueue := x.outQueue ++ [{ p with trailer := x.trailer false x.sendSeq }], reported := x.freed }
  else s

/-- LINK_CRC_FAIL: the packet and those behind it are discarded, and a replay is requested naming LACK; where it was a replay,
the 16th that fails fails the port. -/
def execLinkCrcFail (port : Nat) (s : State) : Result :=
  .next (let x := s.portAt port
    let tries := if x.discarding then x.tries + 1 else 0
    if !x.up then s
    else if 16 ≤ tries then s.failPort port
    else (s.putPort port { x with discarding := true, tries := tries }).linkControl port false)

/-- The copies of a port that lie above a LACK. -/
def Port.above (x : Port) (lack : BitVec 16) : List (BitVec 16 × Packet) :=
  x.replayBuffer.filter fun e => (e.1 - lack).toNat - 1 < 32768 && e.1 ≠ lack

/-- What a trailer tells a port: the copies that have arrived are freed, and the slots freed at the other end let waiting packets
go (R222, R340). -/
def Port.heard (x : Port) (t : Trailer) : Port :=
  let rest := x.above t.lack
  ({ x with replayBuffer := rest, theirs := t.slots, replays := if rest.length < x.replayBuffer.length then 0 else x.replays } :
    Port).flush

/-- LINK_REPLAY_REQUEST: what lies above LACK is sent again; a request after the 16th replay of one packet says that this one
has failed too, which fails the port. -/
def execLinkReplayRequest (port lack : Nat) (s : State) : Result :=
  .next (let x := s.portAt port
    let rest := x.above (.ofNat 16 lack)
    let n := if rest.isEmpty then 0 else if rest.head? == x.replayBuffer.head? then x.replays + 1 else 1
    if !x.up then s
    else if 17 ≤ n then s.failPort port
    else
      let again := rest.map fun e => { e.2 with trailer := x.trailer e.2.trailer.errorTail e.1 }
      s.putPort port ({ x with replayBuffer := rest, replays := n, outQueue := x.outQueue ++ again } : Port).flush)

def execLinkSilenceTimeout (port : Nat) (s : State) : Result := .next (s.failPort port)
def execLinkBeacon (port : Nat) (s : State) : Result := .next (s.linkControl port true)

/-- A multicast packet that this device must pass on finds the reserve of its arrival port's gateway full: it waits upstream (R349). -/
def State.forkFull (s : State) (gw : Nat) (p : Packet) : Bool :=
  (p.members.any fun m => m.1 != s.devNum) && !s.reserveFree gw p.payload.length

/-- A multicast packet at a device of its tree: the member's own copy arrives, and the gateway of its arrival port holds the packet for
its branches (R349). -/
def State.routeTree (s : State) (gw : Nat) (p : Packet) : State :=
  let rest := p.members.filter (·.1 != s.devNum)
  let s1 := match p.members.find? (·.1 == s.devNum) with
    | some (m, q) => s.arrive { p with dst := .ofNat 18 m, seq := q, members := [] }
    | none => s
  if rest.isEmpty then s1 else s1.send (.fork { p with members := rest } none gw)

/-- A packet at the gateway of its arrival port: for this device it goes to its endpoint, else on by its route (R337). -/
def State.routePacket (s : State) (gw : Nat) (p : Packet) : State :=
  if p.kind = 12 && p.cls ≠ 3 && !p.trailer.errorTail then s.takeMarker p
  else if !p.members.isEmpty then s.routeTree gw p
  else if p.dst = s.dev.dev then s.arrive p
  else match s.portFor p.dst.toNat p.rot.toNat p.port.toNat with
    | none => s
    | some n => if s.portWorks n then s.transmitOn n p else s.pathLost n p

/-- LINK_PACKET_RECEIVE: link control tells of what has arrived and asks for a replay. Any other packet is taken only in its
place in the stream: LACK moves on, its beats are freed once it has been passed on, and it is routed (R222, R340). -/
def execLinkPacketReceive (port : Nat) (p : Packet) (s : State) : Result :=
  let x := s.portAt port
  if !x.up then .next s
  else if p.kind = 14 && p.cls = 3 then
    (if (p.payload.headD 1) = 0 then execLinkReplayRequest port p.trailer.lack.toNat (s.putPort port (x.heard p.trailer))
     else .next (s.putPort port (x.heard p.trailer)))
  else if p.trailer.lseq ≠ x.lack + 1 || s.forkFull port p then .next s
  else
    let c : Fin 4 := p.cls.toFin
    let y : Port := { x with
      discarding := false, tries := 0, lack := x.lack + 1
      freed := x.freed.set c.val (x.freed[c] + .ofNat 16 (packetBeats p)) c.isLt }
    .next ((s.putPort port (y.heard p.trailer)).routePacket port { p with trailer := { errorTail := p.trailer.errorTail } })

/-! ### Collectives (R351, R352) -/

/-- COMBINE_ARRIVAL: an arrival and its contribution reach the barrier's gateway and its engine (R350, R351); what another device
sent for it has then been performed (R345). -/
def execCombineArrival (n : Nat) (s : State) : Result :=
  s.whenDescribed n fun m => match m with
    | .combine w shape ps => some fun s => (s.request w.req w.cell (.combine w.payload shape)).settlePackets ps none
    | _ => none

/-- COLLECTIVE_ABORT: an abort reaches a barrier, which does the same (R352). -/
def execCollectiveAbort (n : Nat) (s : State) : Result :=
  s.onMsg n fun m => match m with
    | .abort cell => some fun s => if s.cellTag cell = 2 then (s.objStep { who := .drain 0 } cell .abortCell).1 else s
    | _ => none

end Sys2Proof.Machine
end

