-- ==== Sys2Proof/Machine/Host.lean ====
section
/-! DEFINITION. The host's PCI Express function: BAR4 on device memory (R357), the request window of BAR2 with its
replies (R358, R359), the MSI-X table (R357, R360) and register writes through BAR0. -/

namespace Sys2Proof.Machine

/-! ### BAR4 (R357) -/

/-- Something sent to the host. -/
def State.toHost (s : State) (x : HostOut) : State := { s with hostOut := s.hostOut ++ [x] }

/-- One more discarded host access (R357, R358). -/
def State.hostError (s : State) : State := { s with dev := { s.dev with hosterr := s.dev.hosterr + 1 } }

/-- The lines of a range of device memory are read at their homes, which hold them then (R212). -/
def State.touchRange (s : State) (off len : Nat) : State :=
  if len = 0 then s
  else (List.range ((off + len - 1) / 256 - off / 256 + 1)).foldl (fun t i => t.touch ((off / 256 + i) * 256) .normal) s

/-- A read of device memory, performed at the home; beyond capacity it is an Unsupported Request. -/
def execHostBar4Read (off len : Nat) (s : State) : Result :=
  .next (if Config.capacity < off + len then s.toHost .unsupported
    else (s.touchRange off len).toHost (.read (s.mem.read off len)))

/-- The bytes of a range lie on an object page or a slot page. -/
def State.onMarkedPage (s : State) (off len : Nat) : Bool :=
  (sectorsOf off len).any fun sec => match tblGet? s.pages (sec / 2048) with
    | some .object | some .slot => true
    | _ => false

/-- A write of device memory, performed at the home; on an object or slot page it is discarded, counted and reported,
beyond capacity discarded and counted (R363); at the report address it may ask for a report (R368). -/
def execHostBar4Write (off : Nat) (data : List Byte) (s : State) : Result :=
  .next (if Config.capacity < off + data.length then s.hostError
    else if s.onMarkedPage off data.length then s.hostError.toHost .aerNonFatal
    else (s.homeWrite off data).askReport off data.length)

/-! ### The request window (R358) -/

/-- The number of request slots, and the bytes of one. -/
def slotCount : Nat := 8192
/-- The bytes of a request slot. -/
def slotBytes : Nat := 128

/-- A request slot. -/
def State.slotAt (s : State) (k : Nat) : HostSlot := (tblGet? s.slots k).getD {}
/-- The state with a request slot replaced. -/
def State.putHostSlot (s : State) (k : Nat) (x : HostSlot) : State := { s with slots := tblPut s.slots k x }

/-- One byte written into a slot that is not busy; with the last of its bytes the slot is busy. -/
def State.slotByte (s : State) (off : Nat) (b : Byte) : State :=
  let k := off / slotBytes
  let x := s.slotAt k
  if x.busy then s
  else
    let bs := tblPut x.bytes (off % slotBytes) b
    if bs.length = slotBytes then
      ({ s with stamps := s.stamps + 1 } : State).putHostSlot k { bytes := bs, busy := true, order := s.stamps }
    else s.putHostSlot k { x with bytes := bs }

/-- The bytes of a write into the slots, from an offset up. -/
def State.slotWrite (s : State) : Nat → List Byte → State
  | _, [] => s
  | off, b :: bs => (s.slotByte off b).slotWrite (off + 1) bs

/-- The slots that a range of the window meets. -/
def slotsMet (off len : Nat) : List Nat :=
  if len = 0 then [] else (List.range ((off + len - 1) / slotBytes - off / slotBytes + 1)).map (off / slotBytes + ·)

/-- A write into the window: what meets a busy slot is discarded there and counted, and beyond the window there is
nothing. -/
def execHostBar2Write (off : Nat) (data : List Byte) (s : State) : Result :=
  let bs := data.take (slotCount * slotBytes - off)
  let busy := (slotsMet off bs.length).filter fun k => (s.slotAt k).busy
  .next ((busy.foldl (fun t _ => t.hostError) s).slotWrite off bs)

/-- A field of a request. -/
def HostSlot.field (x : HostSlot) (off n : Nat) : Nat := leValue (((x.bytes.map (·.2)).drop off).take n)

/-- The request of an OP: the instruction of the same name. -/
def HostSlot.op (x : HostSlot) : Option ObjOp :=
  match x.field 0 1 with
  | 0 => some (.push true ((x.bytes.map (·.2)).drop 64))
  | 1 => some (.cntAdd (.ofNat 64 (x.field 16 8)) 0)
  | 2 => some (.cntWait (.ofNat 64 (x.field 16 8)) true)
  | 3 => some .query
  | _ => none

/-- The cell that a request names: a 32-aligned offset of device memory in region-0 form, or a job queue of this device (R206,
R207). -/
def State.hostCell (s : State) (x : HostSlot) : Option Nat :=
  let a := x.field 8 8
  if a < Config.capacity then (if a % 32 = 0 then some a else none)
  else
    let w : Word := .ofNat 64 a
    if addrForm w && s.isLocal w && regionOf (keyOf w) = 3 && (jobQueueOf? (keyOf w - ctlKey 0)).isSome then some (keyOf w)
    else none

/-- The cell is on a plain page, or its tag is not the one that the request needs (R358). -/
def State.notObject (s : State) (cell : Nat) (op : ObjOp) : Bool :=
  (regionOf cell = 0 && tblGet? s.pages (cell / 65536) != some .object) ||
    (match op.needs with | some t => s.cellTag cell != t | none => s.cellTag cell == 7)

/-- The host-request function is READY, with the distributor for a job queue (R364). -/
def State.hostReady (s : State) (cell : Nat) : Bool :=
  s.dev.ready.getLsbD 3 && (regionOf cell ≠ 3 || s.dev.ready.getLsbD 4)

/-- The outcome of a request: the state after its step, its answer, and for OQUERY the type tag (R358, R364). -/
def State.hostStep (s : State) (x : HostSlot) : State × (Answer × Nat) :=
  match x.op, s.hostCell x with
  | some op, some cell =>
    if x.field 1 3 ≠ 0 || x.field 32 32 ≠ 0 || x.field 24 8 % 32 ≠ 0 then (s, { status := 9 }, 0)
    else if !s.hostReady cell then (s, { status := 7 }, 0)
    else if s.notObject cell op then (s, { status := 14 }, 0)
    else match s.objStep { who := .drain 0 } cell op with
      | (s1, some a) =>
        if a.trap.isSome then (s, { status := 9 }, 0)
        else if op == .query then (s1, { a with status := 0 }, a.status)
        else (s1, a, 0)
      | (_, none) => (s, { status := 1 }, 0)
  | _, _ => (s, { status := 9 }, 0)

/-- The 96 bytes of a reply (R359). -/
def hostReply (x : HostSlot) (k : Nat) (a : Answer) (tag : Nat) : List Byte :=
  let image := a.payload.take 64
  leBytes 1 a.status ++ leBytes 1 tag ++ leBytes 2 k ++ leBytes 4 (x.field 4 4) ++ leBytes 8 a.value ++ leBytes 16 0 ++
    image ++ List.replicate (64 - image.length) 0

/-- No other busy slot was completed before this one (R359). -/
def State.oldestSlot (s : State) (x : HostSlot) : Bool := s.slots.all fun e => !e.2.busy || x.order ≤ e.2.order

/-- A replay holds the request of a slot (R371). -/
def State.hostHeld (s : State) (x : HostSlot) : Bool :=
  match s.hostCell x with
  | some cell => s.replayHolds { who := .drain 0 } cell
  | none => false

/-- The request of a busy slot performed in its turn and answered; the slot is then free (R358, R359). -/
def State.hostRequest (s : State) (k : Nat) (op : Nat) : State :=
  let x := s.slotAt k
  if !x.busy || !s.oldestSlot x || s.hostHeld x || (x.field 0 1 ≠ op && x.field 0 1 < 4) then s
  else
    let (s1, a, tag) := s.hostStep x
    let s2 := s1.putHostSlot k {}
    if x.field 24 8 = 0 then s2 else s2.toHost (.reply (.ofNat 64 (x.field 24 8)) (hostReply x k a tag))

def execHostBqpushNw (slot : Nat) (s : State) : Result := .next (s.hostRequest slot 0)
def execHostCntadd (slot : Nat) (s : State) : Result := .next (s.hostRequest slot 1)
def execHostCntwaitNw (slot : Nat) (s : State) : Result := .next (s.hostRequest slot 2)
def execHostOquery (slot : Nat) (s : State) : Result := .next (s.hostRequest slot 3)

/-! ### BAR0 (R357) -/

/-- A word of the pending-bit array. -/
def State.pendingWord (s : State) (i : Nat) : Word :=
  .ofNat 64 (((List.range 64).map fun b => (s.msixPending.contains (64 * i + b)).toNat * 2 ^ b).foldl (· + ·) 0)

/-- A word of the read-out window of a FROZEN device: the record of the selected frame (R369). -/
def State.readOutWord (s : State) (o : Nat) : Word :=
  let byte (x : Nat) : Byte := match s.readOut.find? fun e => e.1 ≤ x && x < e.1 + e.2.length with
    | some e => e.2[x - e.1]?.getD 0
    | none => 0
  .ofNat 64 (leValue ((List.range 8).map fun i => byte (o + i)))

/-- The 8-byte word of BAR0 at an offset, as the host reads it: the control region with S rights, the MSI-X table, the pending-bit
array, and on a FROZEN device the read-out window; none where the spec names nothing. -/
def State.bar0Word (s : State) (o : Nat) : Option Word :=
  if o < 0x800000 then (s.ctlLoad o 8 true).map (.ofNat 64 ·)
  else if o < 0x808000 then some (s.msixWord ((o - 0x800000) / 8))
  else if o < 0x808100 then some (s.pendingWord ((o - 0x808000) / 8))
  else if 0xC00000 ≤ o && o < 0xC10000 && s.dev.frozen then some (s.readOutWord (o - 0xC00000))
  else none

/-- A read of BAR0 answered to the host; what the spec names nothing for reads as an open value (log entry 107). -/
def State.bar0Read (s : State) (off len : Nat) : State :=
  let words := if len = 0 then 0 else (off + len - 1) / 8 - off / 8 + 1
  let (bytes, s1) := (List.range words).foldl (fun (acc : List Byte × State) i =>
    match acc.2.bar0Word ((off / 8 + i) * 8) with
    | some w => (acc.1 ++ leBytes 8 w.toNat, acc.2)
    | none => let (w, t) := acc.2.fresh 64; (acc.1 ++ leBytes 8 w.toNat, t)) ([], s)
  (s1.fresh 1).2.toHost (.read ((bytes.drop (off % 8)).take len))

/-- A word of the MSI-X table written: an entry that it unmasks sends its pending message (log entry 17). -/
def State.msixWrite (s : State) (i : Nat) (w : Word) : State :=
  let v := i / 2
  let s1 : State := { s with msixTable := tblPut s.msixTable i w }
  if !s1.msixMasked v && s1.msixPending.contains v then
    ({ s1 with msixPending := s1.msixPending.erase v } : State).toHost (.msix v)
  else s1

/-- REGISTER_WRITE: eight bytes written through BAR0 with S rights: a register of the control region or a word of the
MSI-X table. -/
def execRegisterWrite (off : Nat) (v : Word) (s : State) : Result :=
  .next (if 0x800000 ≤ off && off < 0x808000 then (if off % 8 = 0 then s.msixWrite ((off - 0x800000) / 8) v else s)
    else if off < 0x800000 then (s.ctlWrite off v 0).getD s
    else s)

end Sys2Proof.Machine
end

