-- ==== Sys2Proof/Machine/System.lean ====
section
/-! DEFINITION. Page 10: control registers (R313, R314), traps and their return (R312, R315), handler regions (R316),
supervisor control of contexts (R324) and of cached translations (R234, R253); and the events of a core and of its
quad: asynchronous traps (R312), the fetch port (R136, R137), rotation (R131), walks (R232), soft errors (R327). -/

namespace Sys2Proof.Machine

/-! ### Control registers (R13, R313, R314) -/

/-- Readable in S only. -/
def crReadS (i : Nat) : Bool := i = 2 || (0x100 ≤ i && i ≠ 0x108 && i ≠ 0x109)

/-- Writable in U. -/
def crWriteU (i : Nat) : Bool := i = 1 || (0x10 ≤ i && i ≤ 0x13) || (0x28 ≤ i && i ≤ 0x2B) || i = 0x32

/-- CRW's effect of clearing FAULTA's W1C bits (R283). -/
def Frame.clearFaulta (f : Frame) (w : Word) : Frame := { f with faulta := f.faulta &&& ~~~(w &&& 0x600000) }

/-- CRW's effect on ARRFLT: VALID clears the record, MORE itself (R298). An ARRAY that is still pending stays so: it is taken, and a
failure that comes before it is taken is recorded in its place, one trap for the two (log entry 129). -/
def Frame.clearArrflt (f : Frame) (w : Word) : Frame :=
  { f with arrflt := if w.getLsbD 21 then 0 else f.arrflt &&& ~~~(w &&& 0x100000) }

/-- CRW's effect on JRNST: each refused entry whose REFD bit is written 1 is freed, and is no longer pending (R317). -/
def Frame.freeRefused (f : Frame) (w : Word) : Frame :=
  (List.range 16).foldl (fun g i =>
    if w.getLsbD (16 + i) && (g.journal.toList[i]?.getD {}).refused then
      { g.setEntry i (fun _ => {}) with pendJournal := g.pendJournal.filter (·.1 != i) }
    else g) f

/-- A frame with a control register written in S or U, reserved fields kept 0 and registers that nobody writes
unchanged; none where the value is refused (R13, R211, R309, R314, R323). -/
def Frame.writeCr (f : Frame) (i : Nat) (w : Word) : Option Frame :=
  if h : 0x28 ≤ i ∧ i < 0x2C then some { f with expw := f.expw.set (i - 0x28) (w &&& 0x7FFEFFFE0) (by omega) }
  else match i with
    | 0x001 => if 4 < w.toNat % 8 then none else some { f with fcsr := w &&& 0x1F0F }
    | 0x010 => some { f with fmta := w &&& 0x1F }
    | 0x011 => some { f with fmtb := w &&& 0xF }
    | 0x012 => some { f with scla := w &&& 0x7FFE0 }
    | 0x013 => some { f with sclb := w &&& 0x7FFE0 }
    | 0x032 => some { f with drainc := w }
    | 0x040 => some (f.clearFaulta w)
    | 0x044 => some (f.clearArrflt w)
    | 0x101 => some { f with trappc := w }
    | 0x106 => some { f with tscr0 := w }
    | 0x107 => some { f with tscr1 := w }
    | 0x10C => some (f.freeRefused w)
    | _ => some f

/-- The value that a control register of the issuing frame reads as; each read of QUANT or QFLAGS takes a fresh open
value. -/
def State.readCr (s : State) (i : Nat) : Word × State :=
  ((s.crValue s.cur s.fr i).getD 0, if i = 0x30 || i = 2 then { s with freeCtr := s.freeCtr + 1 } else s)

/-- A TMMA that the issuing frame has started still runs. -/
def State.mmaOut (s : State) : Bool := match s.co.tmma with | some t => t.frame == s.cur | none => false

/-- The checks of R313 on the index and the privilege of a read and of a write, in their order. A group that names FCSR waits while
a TMMA of its own frame runs, whose flags are still to come (R18, R313); no other register depends on it (R118, R119). -/
def State.crGroup (s : State) (idx : BitVec 12) (rd wr : Bool) (k : State → State) : Result :=
  let i := idx.toNat
  .next (if !crIndices.contains i then s.illegal
    else if (rd && crReadS i && !s.fr.inS) || (wr && (i = 2 || (!s.fr.inS && !crWriteU i))) then s.priv
    else if i = 1 && s.mmaOut then s
    else k s)

def execCrr (d : SReg) (idx : BitVec 12) (s : State) : Result :=
  s.crGroup idx true false fun s => let (v, t) := s.readCr idx.toNat; t.done1 d v

def execCrw (a : SReg) (idx : BitVec 12) (s : State) : Result :=
  s.crGroup idx false true fun s =>
    match s.fr.writeCr idx.toNat (s.rs a) with
    | none => s.illegal
    | some f => (s.putFr f).retire

def execCrx (d a : SReg) (idx : BitVec 12) (s : State) : Result :=
  s.crGroup idx true true fun s =>
    match s.fr.writeCr idx.toNat (s.rs a) with
    | none => s.illegal
    | some f => let (v, t) := s.readCr idx.toNat; (t.putFr f).done1 d v

/-- JRNST_FREE: the effect of a write to JRNST in S (R317). -/
def execJrnstFree (f : Nat) (v : Word) (s : State) : Result :=
  .next (if (s.frameAt f).inS then s.putFrame f ((s.frameAt f).freeRefused v) else s)

/-- FAULTA_CLEAR: the effect of a write to FAULTA in S (R283). -/
def execFaultaClear (f : Nat) (v : Word) (s : State) : Result :=
  .next (if (s.frameAt f).inS then s.putFrame f ((s.frameAt f).clearFaulta v) else s)

/-- ARRFLT_CLEAR: the effect of a write to ARRFLT in S (R298). -/
def execArrfltClear (f : Nat) (v : Word) (s : State) : Result :=
  .next (if (s.frameAt f).inS then s.putFrame f ((s.frameAt f).clearArrflt v) else s)

/-! ### Traps (R312, R315) -/

def execEret (s : State) : Result := .next (s.needS fun s => s.putFr s.fr.eret)

def execTrap (n : BitVec 8) (s : State) : Result := .next (s.retireThenTrap 0x0C 0 (n.setWidth 64))

/-- A frame has an asynchronous trap to take: it is pending, the frame is in U and captures nothing (R125, R312). -/
def Frame.asyncReady (f : Frame) : Bool := f.pendingBits != 0 && !f.inS && f.capture.isNone

/-- The pending asynchronous trap with the lowest code is taken, with TRAPPC at the next scalar group (R308, R312). -/
def State.takeAsync (s : State) (n : Nat) : State :=
  let f := s.frameAt n
  match f.pendJournal with
  | (e, c) :: rest =>
    (s.putFrame n { f with pendJournal := rest }).takeTrapIn n 0x10 c.toNat f.pc (f.journal.toList[e]?.getD {}).addr 0 e
  | [] =>
    match f.pendCopy with
    | some a => (s.putFrame n { f with pendCopy := none }).takeTrapIn n 0x11 0 f.pc a 0 0
    | none =>
      match f.pendArray with
      | some a =>
        (s.putFrame n { f with pendArray := none }).takeTrapIn n 0x12 (bitsOf f.arrflt.toNat 19 16) f.pc a 0 0
      | none =>
        match f.pendFabric with
        | (c, a) :: rest => (s.putFrame n { f with pendFabric := rest }).takeTrapIn n 0x13 c.toNat f.pc a 0 0
        | [] => s

def execAsyncTrap (f : Nat) (s : State) : Result :=
  let x := s.frameAt f
  .next (if (x.status == .ready || x.status == .issuing) && x.stopping.isNone && x.asyncReady then s.takeAsync f else s)

/-! ### Handler regions (R316) -/

/-- A 64 KiB unit of a region in the context's translation: valid, pinned, plain, and with the permissions given. -/
def State.unitPinned (s : State) (asid va : Nat) (p : Perm) : Bool :=
  match s.leafOf s.here asid va with
  | none => false
  | some (leaf, bits) =>
    leaf.getLsbD 48 && (match checkLeaf leaf bits va false p with | .ok (_, 0) => true | _ => false)

/-- The units of a region in the format of R311, by address. The checks of R316 are on its base: the units of a region that runs past
the top of region 0 are numbered on (log entry 131). -/
def regionUnits (w : Word) : List Nat :=
  (List.range (w.toNat % 65536)).map fun i => (keyOf w / 65536 + i) * 65536

/-- The base of a region is a region-0 address of this device. -/
def State.regionHere (s : State) (w : Word) : Bool :=
  let base := w &&& ~~~(0xFFFF : Word)
  addrForm base && s.isLocal base && regionOf (keyOf base) = 0

/-- The status of HNDSET. -/
def State.hndStatus (s : State) (a b : Word) : Nat :=
  let asid := s.fr.asid.toNat
  if a.toNat % 65536 = 0 || !s.regionHere a || !s.regionHere b then 9
  else if (regionUnits a).all (s.unitPinned asid · { x := true }) &&
      (regionUnits b).all (s.unitPinned asid · { r := true, w := true }) then 0
  else 13

/-- The units that the checks of HNDSET come to, up to the first that fails, have had their addresses translated (R231, R232). -/
def State.hndLooked (s : State) (a b : Word) : State :=
  let asid := s.fr.asid.toNat
  let us := (regionUnits a).map (fun va => (va, ({ x := true } : Perm))) ++
    (regionUnits b).map fun va => (va, ({ r := true, w := true } : Perm))
  if a.toNat % 65536 = 0 || !s.regionHere a || !s.regionHere b then s
  else (uptoMarks (fun e => !s.unitPinned asid e.1 e.2) us 1).foldl (fun t e => t.translated s.here asid e.1) s

/-- The frame parks until the reply of the unit that serves it, whose value goes to S[d]. -/
def State.parkStatus (s : State) (d : SReg) (status : Nat) : State :=
  (s.parkFrame .slice .raw d).deliver { who := s.me, rk := .raw, d := d } { value := status }

def execHndset (d a b : SReg) (s : State) : Result :=
  .next (s.needS fun s =>
    let x := s.rs a
    let y := s.rs b
    let status := s.hndStatus x y
    let t := s.hndLooked x y
    let s1 := if status = 0 then t.putFr { t.fr with hndbase := x, hnddata := y } else t
    s1.parkStatus d status)

/-! ### Supervisor control of contexts (R324) -/

/-- A context's frame or saved image given up (R325). -/
def State.killHandle (s : State) (h : Nat) : State :=
  let c := s.ctxAt h
  match c.state with
  | .resident => s.killFrame c.frame
  | .saved | .runnable => s.killContext h (c.image.getD {}) (c.frame / 4)
  | _ => s

/-- CTXSAVE: HOLD marks the context HELD and has a resident one switched out, the reply following its save; KILL ends
it. -/
def execCtxsave (d a b : SReg) (s : State) : Result :=
  .next (s.needS fun s =>
    let h := (s.rs a).toNat
    let op := (s.rs b).toNat
    let c := s.ctxAt h
    if !s.fr.complete then s
    else if 2 ^ 20 ≤ h || c.state == .free || 1 < op then s.parkStatus d 9
    else if h = s.fr.handle.toNat || c.state == .dead then s.parkStatus d 7
    else if op = 1 then (s.killHandle h).parkStatus d 0
    else
      let s1 := s.putCtx h { c with held := true }
      if c.state == .resident then
        let req : Req := { who := s.me, rk := .raw, d := d }
        (s1.parkFrame .slice .raw d).stopFrame c.frame 0 [req.wait 0 .counter]
      else s1.parkStatus d 0)

/-- CTXLOAD: RELEASE clears HELD; FREE frees a DEAD context that OKILL has cleaned. -/
def execCtxload (d a b : SReg) (s : State) : Result :=
  .next (s.needS fun s =>
    let h := (s.rs a).toNat
    let op := (s.rs b).toNat
    let c := s.ctxAt h
    if !s.fr.complete then s
    else if 2 ^ 20 ≤ h || c.state == .free || 1 < op then s.parkStatus d 9
    else if op = 0 then (s.putCtx h { c with held := false }).parkStatus d 0
    else if c.state == .dead && c.cleaned then (s.putCtx h {}).parkStatus d 0
    else s.parkStatus d 7)

/-! ### Cached translations (R232, R234, R253) -/

/-- TLBINV of a form removes a cached translation. -/
def TlbEntry.removed (t : TlbEntry) (form asid va : Nat) : Bool :=
  match form with
  | 0 => t.hits asid va
  | 1 => !t.leaf.getLsbD 49 && t.asid.toNat = asid
  | _ => true

/-- The lines that TLBINV drops from an instruction cache: those of the page that contains an address, else all. -/
def lineDropped (form : Nat) (page : Option (Nat × Nat)) (line : Nat) : Bool :=
  if form = 0 then (match page with | some (lo, n) => lo ≤ line * 32 && line * 32 < lo + n | none => true) else true

/-- Cached translations and instruction-cache lines removed throughout the device. -/
def State.tlbRemove (s : State) (form asid va : Nat) (pages : List (Nat × Nat)) : State :=
  let keep (l : List TlbEntry) : List TlbEntry := l.filter fun t => !t.removed form asid va
  let keepLines (l : List (Nat × List Byte)) : List (Nat × List Byte) :=
    l.filter fun e => !((pages.isEmpty && lineDropped form none e.1) || pages.any fun p => lineDropped form (some p) e.1)
  { s with
    cores := s.cores.map fun (n, c) => (n, { c with tlb := keep c.tlb, fetchBuffer := [] })
    quads := s.quads.map fun (n, q) => (n, { q with l2tlb := keep q.l2tlb, icache := keepLines q.icache })
    slices := s.slices.map fun (n, x) => (n, { x with walkCache := [] }) }

/-- The physical pages that contain an address: as any core or quad caches its translation, and as the tables now give
it. -/
def State.pagesOf (s : State) (asid va : Nat) : List (Nat × Nat) :=
  let page (leaf : Word) (bits : Nat) : Nat × Nat := (leafPA leaf bits va / 2 ^ bits * 2 ^ bits, 2 ^ bits)
  let cached := ((s.cores.flatMap (·.2.tlb)) ++ (s.quads.flatMap (·.2.l2tlb))).filter (·.hits asid va)
  (cached.map fun t => page t.leaf t.bits) ++ (match s.walk asid va with | some (l, b) => [page l b] | none => [])

/-- An access that has used a translation has not completed at its home: a posted one on its way, or a load that its group
left to be performed (R234). -/
def State.postedOut (s : State) : Bool :=
  (s.msgs.any fun m => match m with | .posted x => !x.remote && regionOf x.home == 0 | _ => false) ||
  s.frames.any fun e => e.2.late.any fun x => !x.isStore

/-- A copy engine has translated an end of a unit in region 0 ahead of its turn, and has not moved the unit (R234, R278). -/
def State.unitsOut (s : State) : Bool :=
  let mapped (x : Side) : Bool := match x with | .keys ks => ks.any fun k => regionOf k == 0 | _ => false
  s.cores.any fun e => e.2.fifo.any fun b => b.failed.isNone &&
    b.checked.any fun u => !b.moved.contains u.1 && (mapped u.2.src || mapped u.2.dst)

def execTlbinv (d a b : SReg) (s : State) : Result :=
  .next (s.needS fun s =>
    let x := s.rs a
    let w := (s.rs b).toNat
    let form := bitsOf w 17 16
    let asid := w % 65536
    let ok := if form = 0 then addrForm x && s.isLocal x && regionOf (keyOf x) = 0 else x = 0
    if 2 ^ 18 ≤ w || form = 3 || !ok then s.done1 d 9
    else if !s.fr.complete || s.postedOut || s.unitsOut then s
    else (s.tlbRemove form asid (keyOf x) (s.pagesOf asid (keyOf x))).done1 d 0)

/-- PAGE_WALK: the walker of a core's slice walks; a valid leaf is cached in the core and in its quad, and the valid upper
entries in the walker (R229, R232). -/
def execPageWalk (c asid va : Nat) (s : State) : Result :=
  .next (if !coreExists c || 65536 ≤ asid || 2 ^ 39 ≤ va then s else s.translated c asid va)

/-! ### The fetch port (R136, R137, R253) -/

/-- The translation of an instruction fetch at an address: its home, or the cause that refuses it (R25, R155, R231). -/
def State.fetchPlace (s : State) (n : Nat) (a : Word) : Except Nat Nat :=
  let f := s.frameAt n
  if !addrForm a then .error 5
  else if !s.isLocal a || regionOf (keyOf a) ≠ 0 then .error 6
  else match s.region0 (n / 4) f.asid.toNat (keyOf a) (!f.inS) { x := true } with
    | .error c => .error c
    | .ok (pa, kind) => if kind = 0 then .ok pa else .error 6

/-- The translation of a core's fetch as the caches keep it (R232). -/
def State.fetchTranslated (s : State) (c a : Nat) : State :=
  match (s.coreAt c).issuing with
  | some k => s.translated c (s.frameAt (c * 4 + k.toNat)).asid.toNat (a % 2 ^ 46)
  | none => s

/-- A line of device memory in a quad's instruction cache, which is filled from the line's home where it is missing
(R136, R253). -/
def State.icacheFill (s : State) (q line : Nat) : State :=
  let x := s.quadAt q
  if x.icache.any (·.1 == line) then s
  else
    let (l, s1) := ((s.touch (line * 32) .normal).roundTrip (coreNode q) (homeNode (line * 32)) 1 2).cacheIn 1024 x.icache (line, s.mem.read (line * 32) 32)
    s1.putQuad q { x with icache := l, badLines := x.badLines.filter (· != line) }

/-- A fetch that failed: cause, detail, address and the halfwords up to the failing one. -/
structure FetchFault where
  cause : Nat
  detail : Nat
  addr : Word
  len : Nat
  deriving DecidableEq, Repr

/-- What a fetch finds: a value, a fetch block that the core's buffer lacks (by global block and physical line), or the
cause and detail that refuse it. -/
inductive Fetched (α : Type) where
  | got (x : α)
  | missing (block line : Nat)
  | refused (cause detail : Nat)
  deriving DecidableEq, Repr

/-- A line can be delivered to no buffer: it is poisoned in the instruction cache, or at its home when it is not cached
(R327). -/
def State.lineBad (s : State) (q line : Nat) : Bool :=
  let x := s.quadAt q
  if x.icache.any (·.1 == line) then x.badLines.contains line else s.poisoned (line * 32) 32

/-- A byte of the instruction stream of a frame in its core's fetch buffer (R36, R136). -/
def State.fetchByte (s : State) (n : Nat) (a : Word) : Fetched Byte :=
  match s.fetchPlace n a with
  | .error c => .refused c 0
  | .ok pa =>
    match tblGet? (s.coreAt (n / 4)).fetchBuffer (pa / 32) with
    | some bs => .got (bs.getD (pa % 32) 0)
    | none => if s.lineBad (quadOf (n / 4)) (pa / 32) then .refused 0x1F 1 else .missing (a.toNat / 32) (pa / 32)

/-- A halfword of the instruction stream (R25). -/
def State.fetchHalf (s : State) (n : Nat) (a : Word) : Fetched Half :=
  match s.fetchByte n a with
  | .got lo =>
    match s.fetchByte n (a + 1) with
    | .got hi => .got (hi ++ lo)
    | .missing b l => .missing b l
    | .refused c d => .refused c d
  | .missing b l => .missing b l
  | .refused c d => .refused c d

/-- The halfwords of the group at an address, the `k` already fetched ahead of them: up to the first that is no prefix,
or the fifth prefix; or the first that is missing, or refused with its number (R36). -/
def State.fetchFrom (s : State) (n : Nat) : Nat → Nat → Word → Fetched (List Half) × Nat
  | 0, k, _ => (.got [], k)
  | fuel + 1, k, a =>
    match s.fetchHalf n a with
    | .got h =>
      if isPrefix h then
        match s.fetchFrom n fuel (k + 1) (a + 2) with
        | (.got hs, m) => (.got (h :: hs), m)
        | r => r
      else (.got [h], k)
    | .missing b l => (.missing b l, k)
    | .refused c d => (.refused c d, k)

/-- The fetch block that a core asks for, by global address and physical line: the first block of its issuing frame's next
group that its fetch buffer lacks (R136). -/
def State.fetchWanted (s : State) (c : Nat) : Option (Nat × Nat) :=
  match (s.coreAt c).issuing with
  | none => none
  | some k =>
    let n := c * 4 + k.toNat
    match (s.fetchFrom n 5 0 (s.frameAt n).pc).1 with
    | .missing b l => some (b, l)
    | _ => none

/-- The requests of a quad's cores. -/
def State.fetchRequests (s : State) (q : Nat) : List (Nat × (Nat × Nat)) :=
  (coresOfQuad q).filterMap fun c => (s.fetchWanted c).map fun w => (c, w)

/-- The request that the port serves: the oldest aged one, else the one with the lowest global address (R137). -/
def State.fetchChoice (s : State) (q : Nat) : Option (Nat × Nat) :=
  let rs := s.fetchRequests q
  match (s.quadAt q).aged.findSome? fun e => rs.find? fun r => r.1 == e.1 && r.2.1 == e.2 with
  | some r => some r.2
  | none => rs.foldl (fun best r => match best with
      | none => some r.2
      | some b => if r.2.1 < b.1 then some r.2 else some b) none

/-- The block delivered to a core's fetch buffer, which holds two (R136). -/
def Core.deliverBlock (c : Core) (line : Nat) (bs : List Byte) : Core :=
  { c with fetchBuffer := ((line, bs) :: c.fetchBuffer).take 2 }

/-- FETCH_BLOCK: every core whose request names the block receives it; marks of age on requests that no longer stand go. -/
def execFetchBlock (q : Nat) (s : State) : Result :=
  .next (if quadOf q ≠ q then s
    else match s.fetchChoice q with
    | none => s
    | some w =>
      let rs := s.fetchRequests q
      let who := (rs.filter (·.2 == w)).map (·.1)
      let s1 := (who.foldl (fun t c => t.fetchTranslated c (w.1 * 32)) s).icacheFill q w.2
      let x := s1.quadAt q
      let s2 := s1.putQuad q { x with
        aged := x.aged.filter fun e => rs.any fun r => r.1 == e.1 && r.2.1 == e.2 && r.2 != w }
      who.foldl (fun t c => t.putCore c
        ((t.coreAt c).deliverBlock w.2 ((tblGet? x.icache w.2).getD []))) s2)

/-- FETCH_AGE: a waiting request of a core is aged from now on. -/
def execFetchAge (q c : Nat) (s : State) : Result :=
  let x := s.quadAt q
  .next (match (s.fetchRequests q).find? (·.1 == c) with
    | some r => if x.aged.contains (c, r.2.1) then s else s.putQuad q { x with aged := x.aged ++ [(c, r.2.1)] }
    | none => s)

/-! ### Rotation (R131) -/

/-- A frame stops being its core's issuing frame and is READY. -/
def State.stepAside (s : State) (n : Nat) : State :=
  (s.putFrame n { s.frameAt n with status := .ready }).putCore (n / 4)
    { s.coreAt (n / 4) with issuing := none, lastFrame := .ofNat 2 n }

/-- ISSUE_ROTATION: the issuing frame steps aside for another of its level. -/
def execIssueRotation (c : Nat) (s : State) : Result :=
  .next (match (s.coreAt c).issuing with
    | none => s
    | some k =>
      let n := c * 4 + k.toNat
      let f := s.frameAt n
      if f.status == .issuing && f.betweenIterations && s.readyPeer c n (· == f.level.toNat) then s.stepAside n else s)

/-! ### Mesh links (R222) -/

/-- MESH_CRC_REPLAY: the flit whose CRC failed is discarded and sent again from the replay buffer, with the report that it
carries for the other direction of its lane (R222); nothing that a program sees changes. -/
def execMeshCrcReplay (l : Nat) (s : State) : Result :=
  let x := s.linkAt l
  let t := tblPut s.links l { x with replayed := x.replayed + 1 }
  .next { s with links := match x.buffer with
    | none => t
    | some r => changeLink t (linkBack l) fun y => { y with reported := r.report } }

/-- MESH_BEACON: on an idle link the beacon brings the sender the receiver's count of freed slots; what is in the replay buffers of
the other direction has been received before it (R222). -/
def execMeshBeacon (l : Nat) (s : State) : Result :=
  let t := changeLink s.links (linkBack l) fun y => { y with buffer := none }
  .next { s with links := tblPut t l ((tblGet? t l).getD {}).beacon }

/-! ### Soft errors (R326, R327, R328) -/

/-- CORRECTABLE_ERROR: corrected and counted. -/
def execCorrectableError (_a : Nat) (s : State) : Result := .next { s with eccCorrected := s.eccCorrected + 1 }

/-- A predicate register poisoned. -/
def State.poisonPred (s : State) (n r : Nat) : State :=
  let f := s.frameAt n
  if f.status == .empty then s else s.putFrame n { f with poisonP := f.poisonP ||| (1 <<< r) }

/-- A tile (places 0 to 7) or an accumulator (8 to 11) of a core's bank poisoned. -/
def State.poisonBank (s : State) (core k : Nat) : State :=
  let c := s.coreAt core
  s.putCore core (if k < 8 then { c with poisonT := c.poisonT ||| (1 <<< k) }
    else { c with poisonA := c.poisonA ||| (1 <<< (k - 8)) })

/-- A line of a core's L1 poisoned, if it is held. -/
def State.poisonL1 (s : State) (core line : Nat) : State :=
  let c := s.coreAt core
  s.putCore core { c with l1 := c.l1.map fun l => if l.line = line then { l with poisoned := true } else l }

/-- A line of a quad's instruction cache poisoned, if it is held. -/
def State.poisonICache (s : State) (q line : Nat) : State :=
  let x := s.quadAt q
  if x.icache.any (·.1 == line) then s.putQuad q { x with badLines := line :: x.badLines.filter (· != line) } else s

/-- UNCORRECTABLE_ERROR at a place numbered as log entry 19 says: a byte of memory, whose sector is poisoned; a register
of a frame or of a bank; a line of an L1 or of an instruction cache; state shared by a quad's cores, which resets the
quad (R326), by a die's, which fences it, or by all dies, which fences the device (R334); or state that no context reads (a wait
list, a control store), which is reported. -/
def execUncorrectableError (a : Nat) (s : State) : Result :=
  .next (if a < 3 * 2 ^ 42 then
      { s with poison := if s.poison.contains (a / 32) then s.poison else a / 32 :: s.poison }
    else if a < 2 ^ 46 then s.machineCheck 1 0 0 a 0 0
    else if a < 2 ^ 47 then
      let n := (a - 2 ^ 46) / 64
      let r := a % 64
      let f := s.frameAt n
      if f.status == .empty then s
      else if r < 32 then s.putFrame n { f with poisonS := f.poisonS ||| (1 <<< r) }
      else s.putFrame n { f with poisonV := f.poisonV ||| (1 <<< (r - 32)) }
    else if a - 2 ^ 47 < 4096 && coreExists (a - 2 ^ 47) then s.resetQuad (quadOf (a - 2 ^ 47))
    else if 2 ^ 47 + 4096 ≤ a && a < 2 ^ 47 + 4096 + 2 ^ 17 then
      s.poisonPred ((a - 2 ^ 47 - 4096) / 8) ((a - 2 ^ 47 - 4096) % 8)
    else if 2 ^ 48 ≤ a && a < 2 ^ 48 + 2 ^ 16 then s.poisonBank ((a - 2 ^ 48) / 16) ((a - 2 ^ 48) % 16)
    else if 2 ^ 49 ≤ a && a < 2 ^ 50 then s.poisonL1 ((a - 2 ^ 49) / 2 ^ 34) (a % 2 ^ 34)
    else if 2 ^ 50 ≤ a && a < 2 ^ 51 then s.poisonICache ((a - 2 ^ 50) / 2 ^ 34) (a % 2 ^ 34)
    else if 2 ^ 51 ≤ a && a < 2 ^ 51 + 5 then s.fenceUnit (a - 2 ^ 51)
    else s.machineCheck 1 0 0 0 0 0)

end Sys2Proof.Machine
end

