-- ==== Sys2Proof/Machine/Issue.lean ====
section
/-! DEFINITION. How the machine moves: the choice of a core's issuing frame (R131), fetch and delimitation of a group (R25,
R36), what holds a group at issue (R22, R241, R327), and the turns of the device's other agents. Where the order of two
agents' turns is open, the agenda in State says it; with an empty agenda the turns follow a fixed order (log entry 21). -/

namespace Sys2Proof.Machine

/-! ### Kinds of instruction -/

/-- A step that another agent than an issuing frame may take of its own accord: no group of halfwords stands for it. What only a
write of a register or the meeting of an event with a trace sets off (R317, R283, R301, R340, R362, R370, R371) is done there,
within that step, and is no turn of an agent. -/
def isEvent : Instr → Bool
  | .registerWrite _ _ | .asyncTrap _ | .fetchBlock _ | .fetchAge _ _ | .issueRotation _ | .rptIterationIssue _
  | .tmmaComplete _ | .matrixResidueError _ | .matrixBankExchange _ | .bankHoldExpiry _ | .quantExpiry _
  | .jobCardPop _ _ | .cardWaitWake _ | .dealChunk _ _ | .gangDeal _ _ | .chunkLoadComplete _ | .chunkEnd _
  | .objectReply _ | .wakeSavedContext _ | .spillRingWake _ | .agentCntadd _ | .parentArrival _
  | .parentCompleteWake _ | .cvLockRelease _ | .cvMovedAcquire _ | .lockAbandon _ | .waiterRemoval _
  | .deadContextMessage _ | .settleAdd _ | .refirePush _ | .refireLost _ | .distributorVcack _ | .vcNotice _
  | .homeStorePerform _ | .loadReply _ | .storeAck _ | .storeRefusal _ | .pageWalk _ _ _ | .mapcmdMap
  | .mapcmdUnmap | .mapcmdComplete | .meshCrcReplay _ | .meshBeacon _ | .copyBlockStart _ _
  | .copyCommandComplete _ _ | .copyBlockComplete _ _ | .copyFault _ _ | .cpytRowWrite _ | .busCycle _
  | .mossCallStart _ | .mossCallComplete _ | .budgetExpiry _ | .switchOut _ | .contextRestore _ _
  | .gangSwitch _ | .gangDrainTimeout _ | .quadReset _ | .correctableError _ | .uncorrectableError _
  | .dieFence _ | .masterElection | .fabricPacketArrival _ | .windowRevoked _ | .fabricAck _ | .fabricRefusal _
  | .linkCrcFail _ | .linkReplayRequest _ _ | .linkSilenceTimeout _ | .linkBeacon _ | .endToEndTimeout _
  | .purgeMarker _ | .purged _ | .purgeTimeout _ | .transferWaitWake _ | .transferComplete _ _
  | .transferError _ _ | .multicastFork _ | .combineArrival _ | .collectiveAbort _
  | .hostBar4Read _ _ | .hostBar4Write _ _ | .hostBqpushNw _ | .hostCntadd _ | .hostCntwaitNw _ | .hostOquery _
  | .powerOnReset | .functionReady _ _ | .firmwareLoad | .controlStoreInstall | .attestReport | .freeze | .resume
  | .thermalThrottle _ | .hostBar2Write _ _ | .linkPacketReceive _ _ | .quadResetComplete _ => true
  | _ => false

/-- What goes on while the device is FROZEN: the host's accesses of memory, windows and registers, the links' beacons, and RESUME;
engines take no step, those of the host's requests among them (R369). -/
def actsFrozen : Instr → Bool
  | .resume | .registerWrite _ _ | .powerOnReset | .hostBar4Read _ _ | .hostBar4Write _ _ | .hostBar2Write _ _
  | .linkBeacon _ | .meshBeacon _ => true
  | _ => false

/-- A group that may issue while a repetition is active, but for its place (R22). -/
def runsAhead : Instr → Bool
  | .nop | .add _ _ _ | .sub _ _ _ | .and _ _ _ | .or _ _ _ | .xor _ _ _ | .andn _ _ _ | .sll _ _ _ | .srl _ _ _
  | .sra _ _ _ | .ror _ _ _ | .slt _ _ _ | .sltn _ _ _ | .mul _ _ _ | .mulh _ _ _ | .mulhn _ _ _ | .seq _ _ _
  | .div _ _ _ | .divn _ _ _ | .rem _ _ _ | .remn _ _ _ | .min _ _ _ | .max _ _ _ | .minn _ _ _ | .maxn _ _ _
  | .addi _ _ _ | .andi _ _ _ | .ori _ _ _ | .xori _ _ _ | .slli _ _ _ | .srli _ _ _ | .srai _ _ _ | .slti _ _ _
  | .li _ _ | .lih _ _ | .clz _ _ | .ctz _ _ | .popc _ _ | .sext _ _ _ | .beq _ _ _ | .bne _ _ _ | .blt _ _ _
  | .bge _ _ _ | .bltn _ _ _ | .bgen _ _ _ | .j _ | .jal _ | .jr _ | .jalr _ | .ret _ | .fadd _ _ _ _
  | .fsub _ _ _ _ | .fmul _ _ _ _ | .fdiv _ _ _ _ | .fmin _ _ _ _ | .fmax _ _ _ _ | .fsgnj _ _ _ _
  | .fsqrt _ _ _ | .fma _ _ _ _ | .fms _ _ _ _ | .fnma _ _ _ _ | .feq _ _ _ _ | .flt _ _ _ _ | .fle _ _ _ _
  | .fun _ _ _ _ | .fclass _ _ _ | .fabs _ _ _ | .fneg _ _ _ | .fcvtFI _ _ _ _ | .fcvtIF _ _ _ _ | .fcvtFF _ _ _
  | .fcvtT _ _ _ _ _ => true
  | _ => false

/-- Where a branch or a jump would go (R83 to R87). -/
def Frame.targetOf (f : Frame) : Instr → Word
  | .beq _ _ imm | .bne _ _ imm | .blt _ _ imm | .bge _ _ imm | .bltn _ _ imm | .bgen _ _ imm | .j imm | .jal imm =>
    f.pc + imm + imm
  | .jr a | .jalr a | .ret a => evenAddr (f.getS a)
  | _ => f.pc

/-- An address within the range of CONT from the end of the body (R22, R23). -/
def Frame.inContRange (f : Frame) (a : Word) : Bool :=
  let d := (a - f.rep.endPc).toInt / 2
  decide (-(2 ^ 31 : Nat) ≤ d ∧ d ≤ (2 ^ 31 - 1 : Nat))

/-- A group that the scalar pipeline issues although a repetition is active (R22). -/
def Frame.mayRunAhead (f : Frame) (i : Instr) : Bool :=
  runsAhead i && f.inContRange f.pc && f.inContRange (f.targetOf i)

/-! ### The next group (R25, R36, R136) -/

/-- A group as fetched: its instruction, length and last halfword. -/
structure Group where
  instr : Instr
  len : Nat
  last : Half
  deriving DecidableEq, Repr

/-- The group at a frame's PC, decoded, once its core's fetch buffer holds it whole. An error without a fault waits for a
block. -/
def State.fetchGroup (s : State) (n : Nat) : Except (Option FetchFault) Group :=
  let pc := (s.frameAt n).pc
  match s.fetchFrom n 5 0 pc with
  | (.missing _ _, _) => .error none
  | (.refused c d, k) => .error (some { cause := c, detail := d, addr := pc + .ofNat 64 (2 * k), len := k + 1 })
  | (.got hs, _) =>
    match decode hs with
    | some (i, len) => .ok { instr := i, len := len, last := hs.getD (len - 1) 0 }
    | none => .ok { instr := .udf 0 0, len := hs.length, last := 0 }

/-! ### Issue (R18, R131) -/

/-- A frame becomes its core's issuing frame, one that issued before it stepping aside (R131). -/
def State.startIssuing (s : State) (n : Nat) : State :=
  let k : BitVec 2 := .ofNat 2 n
  if (s.frameAt n).status == .issuing then { s with cur := n }
  else
    let s1 := match (s.coreAt (n / 4)).issuing with
      | some m => s.stepAside (n / 4 * 4 + m.toNat)
      | none => s
    let s2 := s1.putFrame n { s1.frameAt n with status := .issuing }
    { s2.putCore (n / 4) { s2.coreAt (n / 4) with issuing := some k, lastFrame := k } with cur := n }

/-- A decoded group at issue (R36): into a capture in progress (R124), or executed; a group that decodes there, and that its
class and privilege admit, raises MCHECK on a poisoned source (R327), of a matrix group in the bank as it finds it. In a late turn
its load, or its stores to the scratchpad, are left to be performed (R240). -/
def State.issueGroup (s : State) (g : Group) (late : Bool) (run : Instr → State → Result) : Result :=
  let s1 := { s with issue := { len := g.len, base := g.last, pc := s.fr.pc, defer := late && s.fr.capture.isNone } }
  if s1.heldAtIssue g.instr then .next s
  else
    match s1.fr.capture with
    | some c =>
      if c.accepts g.instr && s1.fr.admits g.instr && s1.fr.poisonedIn ((sourceRegs g.instr).1, []) then
        .next (s1.trap 0x1F 0 2)
      else s1.captureGroup g.instr c
    | none =>
      let s2 := if isMatrixGroup g.instr && s1.fr.admits g.instr then s1.claimBank else s1
      if s2.fr.admits g.instr && s2.sourcePoisoned g.instr then .next (s2.trap 0x1F 0 2)
      else match (if late then s2.leaveGroup g.instr else none) with
        | some t => .next t
        | none => run g.instr s2

/-- A group that the scalar pipeline issues although a repetition is active: one of R22 that no poisoned source stops, whose trap
waits for the drain (log entry 112). -/
def State.issuesAhead (s : State) (n : Nat) (i : Instr) : Bool :=
  (s.frameAt n).mayRunAhead i && !(s.frameAt n).poisonedIn (sourceRegs i)

/-- The bank's owner has had a turn in which it had a group to issue, so that its protection may run out (R134). -/
def State.usedBank (s : State) (n : Nat) : State :=
  let c := s.coreAt (n / 4)
  if c.owner == some (.ofNat 2 n) && !c.used then s.putCore (n / 4) { c with used := true } else s

/-- The turn of a frame that may issue: a pending asynchronous trap (R312); a stopped TMMA, which goes to wait for the bank to be
executed again (R318); else its next group, unless an active
repetition holds it, when the sequencer issues (R22). A group whose fetch block is missing waits for it (R136); one whose fetch is refused has had its address translated (R232). -/
def State.issueFrame (s : State) (n : Nat) (late : Bool) (run : Instr → State → Result) : Result :=
  let f := s.frameAt n
  if !(f.status == .ready || f.status == .issuing) || f.stopping.isSome then .next s
  else
    let s1 := (s.startIssuing n).sampleFlags (n / 4) (some (n / 4))
    if f.asyncReady then .next (s1.takeAsync n)
    else if s1.replaying n then .next s1
    else if f.replay.isSome then .next s1.enterSwap
    else
      let u := s1.usedBank n
      match s1.fetchGroup n with
      | .error none => if f.repRunning then u.sequencerStep n late else .next s1
      | .error (some e) =>
        if f.repRunning then u.sequencerStep n late
        else .next (({ u.looked e.addr 1 with issue := { len := e.len, pc := f.pc } } : State).trap e.cause e.addr e.detail)
      | .ok g =>
        if f.repRunning && !s1.issuesAhead n g.instr then u.sequencerStep n late else u.issueGroup g late run

/-- The frame that takes the next turn: of the cores that have one, the first after the core of the last turn. -/
def State.nextFrame (s : State) : Option Nat :=
  let cs := (s.frames.map fun e => e.1 / 4).filter fun c => (s.chosenFrame c).isSome
  let c := match cs.find? fun c => s.here < c with
    | some c => some c
    | none => cs.head?
  c.bind s.chosenFrame

/-! ### Turns of the other agents -/

/-- The first of some messages in flight, from the `k`-th on, that may be delivered. -/
def State.nextMsg (s : State) : Nat → List Msg → Option (Nat × Msg)
  | _, [] => none
  | k, m :: t => if s.deliverable k m then some (k, m) else s.nextMsg (k + 1) t

/-- The first message in flight that may be delivered is delivered. -/
def State.messageTurn (s : State) : Option Result :=
  (s.nextMsg 0 s.msgs).map fun (k, m) => match m with
    | .posted _ | .arrived _ _ => execHomeStorePerform k s
    | .ack _ _ _ => execStoreAck k s
    | .refusal _ _ _ _ => execStoreRefusal k s
    | .reply r =>
      match r.who with
      | .ctx id =>
        let c := s.ctxAt (id % 2 ^ 20)
        if c.state == .dead || c.state == .free then execDeadContextMessage k s
        else if c.state == .resident then execObjectReply k s
        else execWakeSavedContext k s
      | _ => execObjectReply k s
    | .spilled _ _ => execSpillRingWake k s
    | .load _ _ _ _ _ => execLoadReply k s
    | .agentAdd .. | .agentWait .. => execAgentCntadd k s
    | .parentArrival _ _ _ _ _ => execParentArrival k s
    | .parentWake _ _ _ _ => execParentCompleteWake k s
    | .cvRelease .. | .cvFailed _ _ => execCvLockRelease k s
    | .cleaned _ _ | .removal _ _ => execWaiterRemoval k s
    | .cvAcquire .. => execCvMovedAcquire k s
    | .abandon _ _ _ => execLockAbandon k s
    | .settle _ _ _ => execSettleAdd k s
    | .refire _ _ _ _ _ _ _ => execRefirePush k s
    | .refireLost _ _ => execRefireLost k s
    | .vcack _ _ _ => execDistributorVcack k s
    | .notice _ _ _ _ => execVcNotice k s
    | .chunkEnd _ _ _ _ => execChunkEnd k s
    | .cardWake _ _ _ => execCardWaitWake k s
    | .xferWake _ _ _ _ => execTransferWaitWake k s
    | .combine _ _ _ => execCombineArrival k s
    | .abort _ => execCollectiveAbort k s
    | .fork .. => execMulticastFork k s
    | .branch .. => .next s

/-- A transfer that has packets to send sends its next once its flow, of a multicast its tree, takes one (R341, R349). -/
def State.sendTurn (s : State) (c k : Nat) (b : Block) : Option Result :=
  match b.cmd with
  | some x =>
    let dst : Word := .ofNat 64 (cmdField x.raw 8 8)
    if (if b.kind == .mcst then !s.treeReady c x.group else !s.isLocal dst && !s.flowReady c (devOf dst)) then none
    else some (execCopyCommandComplete c k s)
  | none => none

/-- A member of a block's multicast has an add due. -/
def State.addsDue (s : State) (c : Nat) (b : Block) : Bool :=
  match b.cmd with
  | some x => !(s.membersDue c b x).isEmpty
  | none => false

/-- Row writes of a block stand at its slice (R279). -/
def State.rowsOut (s : State) (c : Nat) (b : Block) : Bool :=
  b.sent && s.slices.any fun e => e.2.rows.any fun r => r.core == c && r.block == b.id

/-- A block of a copy engine that can take a step, and the step. -/
def State.blockTurn (s : State) (c k : Nat) (b : Block) : Option Result :=
  let f := s.frameAt b.frame
  let before := (s.coreAt c).fifo.take k
  let waits := f.status != .empty && f.handle == b.handle && f.owes b.stamp
  if !b.started then
    (if before.any (fun x => !x.started) || 4 ≤ (before.filter (·.started)).length ||
        (b.ordf && before.any fun x => x.handle == b.handle) || waits then none
     else some (execCopyBlockStart c k s))
  else if b.failed.isSome then
    (if !b.isTransfer then some (execCopyFault c k s)
     else if b.kind == .mcst && !b.sent then s.sendTurn c k b
     else if s.addsDue c b then some (execTransferComplete c k s)
     else if s.dataOut c b.id then none
     else some (execTransferError c k s))
  else if b.cmd.isNone then some (execCopyBlockComplete c k s)
  else if b.waiting then none
  else if b.isTransfer then
    (if !b.sent then s.sendTurn c k b
     else if !s.addsDue c b && s.dataOut c b.id then none
     else some (execTransferComplete c k s))
  else if s.copyOut c b.id || s.rowsOut c b then none
  else some (execCopyCommandComplete c k s)

/-- A core's matrix unit and copy engine. Left to itself the owner's protection ends once it has had a turn with a group (R134, R152). -/
def State.coreTurn (s : State) (c : Nat) (co : Core) : Option Result :=
  if co.tmma.isSome then some (execTmmaComplete c s)
  else if co.owner.isSome && co.hold && co.used && !co.swapQueue.isEmpty && co.issuing == co.owner then some (execBankHoldExpiry c s)
  else if !(co.owner.isSome && co.hold) && !co.swapQueue.isEmpty && !s.bankOwes c then some (execMatrixBankExchange c s)
  else (co.fifo.zip (List.range co.fifo.length)).findSome? fun e => s.blockTurn c e.2 e.1

/-- A slice's sequencer and command bus. -/
def State.sliceTurn (s : State) (sl : Nat) (x : Slice) : Option Result :=
  match x.run with
  | some r =>
    if r.words ≤ r.issued then some (execMossCallComplete sl s)
    else if s.budgetOf r.call ≤ r.issued then some (execBudgetExpiry sl s)
    else some (execBusCycle sl s)
  | none =>
    if !x.queue.isEmpty then some (execMossCallStart sl s)
    else if !x.rows.isEmpty then some (execCpytRowWrite sl s)
    else if 0 < x.waiting then some (execBusCycle sl s)
    else none

/-- The mapping command, the firmware load, the attestation report and the host's requests. -/
def State.controlTurn (s : State) : Option Result :=
  if s.mapcmd.running then
    some (if s.mapcmd.valid && !s.mapcmd.done then
        (if s.mapcmd.curOp.toNat % 4 = 1 then execMapcmdMap s else execMapcmdUnmap s)
      else execMapcmdComplete s)
  else if s.dev.fwRunning && s.dev.fwLeft.isEmpty then some (execFirmwareLoad s)
  else if s.dev.attestAsked && s.dev.ready.getLsbD 8 then some (execAttestReport s)
  else if s.dev.fwLeft.any s.mayInstall then some (execControlStoreInstall s)
  else match s.slots.find? fun e => e.2.busy && s.oldestSlot e.2 && !s.hostHeld e.2 with
    | some (k, x) => some (match x.field 0 1 with
      | 0 => execHostBqpushNw k s
      | 1 => execHostCntadd k s
      | 2 => execHostCntwaitNw k s
      | _ => execHostOquery k s)
    | none => none

/-- A frame that has left an access to perform, that ends its load, or that is told to stop and may be saved. -/
def State.frameTurn (s : State) (n : Nat) (f : Frame) : Option Result :=
  if !f.late.isEmpty then some (.next (s.performLate n 0 0))
  else if f.status == .loading then some (execChunkLoadComplete n s)
  else if f.savable && !s.inGang n then some (execSwitchOut n s)
  else none

/-- The turn of an agent other than a frame's issue, if one can act. -/
def State.deviceTurn (s : State) : Option Result :=
  match s.messageTurn with
  | some r => some r
  | none =>
    match s.cores.findSome? fun e => s.coreTurn e.1 e.2 with
    | some r => some r
    | none =>
      match s.slices.findSome? fun e => s.sliceTurn e.1 e.2 with
      | some r => some r
      | none =>
        match s.controlTurn with
        | some r => some r
        | none => s.frames.findSome? fun e => s.frameTurn e.1 e.2

/-- With nothing else to do, the distributor: whatever it can do of restoring a saved context, dealing from an active set and
popping a card (R139 to R146, R152). -/
def State.distributorTurn (s : State) : Result :=
  let deal (j : Job) : Option State :=
    if j.status != .active || j.allDealt then none
    else if j.gang then s.gangTurn j.part.toNat j.level.toNat
    else s.dealTurn j.part.toNat j.level.toNat
  let pop (p l : Nat) : Option State := if s.queueOcc (ctlKey (jobQueueOff p l)) = 0 then none else s.popCard p l
  .next (match s.ctxs.findSome? fun e => [0, 1, 2, 3].findSome? fun k => s.restoreTurn e.1 (e.2.frame / 4 * 4 + k) with
    | some t => t
    | none =>
      match s.jobs.findSome? deal with
      | some t => t
      | none => (s.parts.findSome? fun e => if e.2.live then (List.range 48).findSome? (pop e.1) else none).getD s)

/-- The quad's fetch port acts for a core that waits for a block: the request that it serves next is served, and one
that is passed over ages (R137). -/
def State.fetchTurn (s : State) (c : Nat) (w : Nat × Nat) : Result :=
  let q := quadOf c
  if s.fetchChoice q == some w || (s.quadAt q).aged.contains (c, w.1) then execFetchBlock q s else execFetchAge q c s

/-- A frame's turn: its core's fetch, while the frame issues and waits for a block, else its issue. -/
def State.frameStep (s : State) (n : Nat) (run : Instr → State → Result) : Result :=
  if (s.coreAt (n / 4)).issuing == some (.ofNat 2 n) then
    match s.fetchWanted (n / 4) with
    | some w => s.fetchTurn (n / 4) w
    | none => s.issueFrame n false run
  else s.issueFrame n false run

/-- A step with an empty agenda: an agent that can act, else a frame's issue, else the distributor. -/
def State.ownTurn (s : State) (run : Instr → State → Result) : Result :=
  match s.deviceTurn with
  | some r => r
  | none =>
    match s.nextFrame with
    | some n => s.frameStep n run
    | none => s.distributorTurn

/-- A turn that the agenda names; the frame that a core issues is the one that R131 chooses. -/
def State.namedTurn (s : State) (t : Turn) (run : Instr → State → Result) : Result :=
  match t with
  | .issue n => if s.dev.frozen || s.chosenFrame (n / 4) != some n then .next s else s.issueFrame n false run
  | .issueLate n => if s.dev.frozen || s.chosenFrame (n / 4) != some n then .next s else s.issueFrame n true run
  | .perform n k j => .next (if s.dev.frozen then s else s.performLate n k j)
  | .busRequest sl =>
    let x := s.sliceAt sl
    .next (if s.dev.frozen then s else s.putSlice sl { x with waiting := x.waiting + 1 })
  | .install sl => .next (if s.dev.frozen then s else s.install sl)
  | .hostRead off len => .next (s.bar0Read off len)
  | .copyUnit c k j => .next (if s.dev.frozen then s else s.copyTurn c k j)
  | .event i => if isEvent i && (!s.dev.frozen || actsFrozen i) then run i s else .next s

/-- One step of the machine: the agenda's first turn, else one of its own. A stopped device does nothing more (R334); a
FROZEN one waits (R369). -/
def State.advanceBy (s : State) (run : Instr → State → Result) : Result :=
  if s.stopped then .fault .deviceStopped
  else match s.agenda with
    | t :: rest => ({ s with agenda := rest } : State).namedTurn t run
    | [] => if s.dev.frozen then .next s else s.ownTurn run

/-! ### A program placed from outside (log entry 6) -/

/-- Where a placed instruction stands, by its address in region 0, which is also its place in device memory. -/
def placedAt : Nat := 2 ^ 37

/-- A translation of the 1 GiB page at that place onto itself, with every permission, in U. -/
def placedPage : TlbEntry := { asid := 0, vpage := placedAt / 2 ^ 30, bits := 30, leaf := .ofNat 64 (placedAt + 0x3F) }

/-- A frame that holds context 0 and issues next at that place. -/
def Frame.placed (f : Frame) : Frame :=
  { f with
    status := .issuing, pc := .ofNat 64 placedAt, asid := 0, cls := 2, handle := 0, stopping := none, capture := none
    rep := {}, replay := none, pendJournal := [], pendCopy := none, pendArray := none, pendFabric := [], fenceLoads := [],
    fenceStores := [], fenceClear := false, late := [], seen := [], poisonS := 0, poisonV := 0, poisonP := 0, parkedOn := .none }

/-- A context whose next group is the given halfwords, in frame 0 of core 0; the next turn is its issue. -/
def State.placeGroup (s : State) (hs : List Half) : State :=
  let bytes := hs.flatMap fun h => leBytes 2 h.toNat
  let s1 := s.putCtx 0 { state := .resident, frame := 0 }
  let s2 := s1.putFrame 0 (s1.frameAt 0).placed
  let mem := s2.mem.write placedAt bytes
  let s3 := s2.putCore 0 { s2.coreAt 0 with
    issuing := some 0, lastFrame := 0, tlb := [placedPage], tmma := none
    fetchBuffer := [(placedAt / 32, mem.read placedAt 32)] }
  let s4 := s3.putQuad 0 { s3.quadAt 0 with icache := [] }
  { s4 with
    mem := mem, poison := s4.poison.filter (· != placedAt / 32), cur := 0,
    agenda := [.issue 0], stopped := false, dev := { s4.dev with frozen := false } }

end Sys2Proof.Machine
end

