-- ==== Sys2Proof/Machine/Dispatch.lean ====
section
/-! DEFINITION. One arm for each instruction and event: its meaning. -/

namespace Sys2Proof.Machine

/-- What executing an instruction, or a step of another agent, does. -/
def exec (i : Instr) (s : State) : Host.Outcome State Fault Refusal :=
  match i with
  | .udf hw pos => Sys2Proof.Machine.execUdf hw pos s
  | .nonInstructionPattern hw pos => Sys2Proof.Machine.execNonInstructionPattern hw pos s
  | .nop => Sys2Proof.Machine.execNop s
  | .yield => Sys2Proof.Machine.execYield s
  | .done => Sys2Proof.Machine.execDone s
  | .doneAb => Sys2Proof.Machine.execDoneAb s
  | .brk n => Sys2Proof.Machine.execBrk n s
  | .add d a b => Sys2Proof.Machine.execAdd d a b s
  | .sub d a b => Sys2Proof.Machine.execSub d a b s
  | .and d a b => Sys2Proof.Machine.execAnd d a b s
  | .or d a b => Sys2Proof.Machine.execOr d a b s
  | .xor d a b => Sys2Proof.Machine.execXor d a b s
  | .andn d a b => Sys2Proof.Machine.execAndn d a b s
  | .sll d a b => Sys2Proof.Machine.execSll d a b s
  | .srl d a b => Sys2Proof.Machine.execSrl d a b s
  | .sra d a b => Sys2Proof.Machine.execSra d a b s
  | .ror d a b => Sys2Proof.Machine.execRor d a b s
  | .slt d a b => Sys2Proof.Machine.execSlt d a b s
  | .sltn d a b => Sys2Proof.Machine.execSltn d a b s
  | .mul d a b => Sys2Proof.Machine.execMul d a b s
  | .mulh d a b => Sys2Proof.Machine.execMulh d a b s
  | .mulhn d a b => Sys2Proof.Machine.execMulhn d a b s
  | .seq d a b => Sys2Proof.Machine.execSeq d a b s
  | .div d a b => Sys2Proof.Machine.execDiv d a b s
  | .divn d a b => Sys2Proof.Machine.execDivn d a b s
  | .rem d a b => Sys2Proof.Machine.execRem d a b s
  | .remn d a b => Sys2Proof.Machine.execRemn d a b s
  | .min d a b => Sys2Proof.Machine.execMin d a b s
  | .max d a b => Sys2Proof.Machine.execMax d a b s
  | .minn d a b => Sys2Proof.Machine.execMinn d a b s
  | .maxn d a b => Sys2Proof.Machine.execMaxn d a b s
  | .addi d a imm => Sys2Proof.Machine.execAddi d a imm s
  | .andi d a imm => Sys2Proof.Machine.execAndi d a imm s
  | .ori d a imm => Sys2Proof.Machine.execOri d a imm s
  | .xori d a imm => Sys2Proof.Machine.execXori d a imm s
  | .slli d a imm => Sys2Proof.Machine.execSlli d a imm s
  | .srli d a imm => Sys2Proof.Machine.execSrli d a imm s
  | .srai d a imm => Sys2Proof.Machine.execSrai d a imm s
  | .slti d a imm => Sys2Proof.Machine.execSlti d a imm s
  | .li d imm => Sys2Proof.Machine.execLi d imm s
  | .lih d imm => Sys2Proof.Machine.execLih d imm s
  | .clz d a => Sys2Proof.Machine.execClz d a s
  | .ctz d a => Sys2Proof.Machine.execCtz d a s
  | .popc d a => Sys2Proof.Machine.execPopc d a s
  | .sext d a sz => Sys2Proof.Machine.execSext d a sz s
  | .ldl d a imm sz => Sys2Proof.Machine.execLdl d a imm sz s
  | .ldln d a imm sz => Sys2Proof.Machine.execLdln d a imm sz s
  | .stl d a imm sz => Sys2Proof.Machine.execStl d a imm sz s
  | .beq a b imm => Sys2Proof.Machine.execBeq a b imm s
  | .bne a b imm => Sys2Proof.Machine.execBne a b imm s
  | .blt a b imm => Sys2Proof.Machine.execBlt a b imm s
  | .bge a b imm => Sys2Proof.Machine.execBge a b imm s
  | .bltn a b imm => Sys2Proof.Machine.execBltn a b imm s
  | .bgen a b imm => Sys2Proof.Machine.execBgen a b imm s
  | .j imm => Sys2Proof.Machine.execJ imm s
  | .jal imm => Sys2Proof.Machine.execJal imm s
  | .jr a => Sys2Proof.Machine.execJr a s
  | .jalr a => Sys2Proof.Machine.execJalr a s
  | .ret a => Sys2Proof.Machine.execRet a s
  | .fadd p d a b => Sys2Proof.Machine.execFadd p d a b s
  | .fsub p d a b => Sys2Proof.Machine.execFsub p d a b s
  | .fmul p d a b => Sys2Proof.Machine.execFmul p d a b s
  | .fdiv p d a b => Sys2Proof.Machine.execFdiv p d a b s
  | .fmin p d a b => Sys2Proof.Machine.execFmin p d a b s
  | .fmax p d a b => Sys2Proof.Machine.execFmax p d a b s
  | .fsgnj p d a b => Sys2Proof.Machine.execFsgnj p d a b s
  | .fsqrt p d a => Sys2Proof.Machine.execFsqrt p d a s
  | .fma p d a b => Sys2Proof.Machine.execFma p d a b s
  | .fms p d a b => Sys2Proof.Machine.execFms p d a b s
  | .fnma p d a b => Sys2Proof.Machine.execFnma p d a b s
  | .feq p d a b => Sys2Proof.Machine.execFeq p d a b s
  | .flt p d a b => Sys2Proof.Machine.execFlt p d a b s
  | .fle p d a b => Sys2Proof.Machine.execFle p d a b s
  | .fun p d a b => Sys2Proof.Machine.execFun p d a b s
  | .fclass p d a => Sys2Proof.Machine.execFclass p d a s
  | .fabs p d a => Sys2Proof.Machine.execFabs p d a s
  | .fneg p d a => Sys2Proof.Machine.execFneg p d a s
  | .fcvtFI f p d a => Sys2Proof.Machine.execFcvtFI f p d a s
  | .fcvtIF f p d a => Sys2Proof.Machine.execFcvtIF f p d a s
  | .fcvtFF p d a => Sys2Proof.Machine.execFcvtFF p d a s
  | .fcvtT f p d a toFloat => Sys2Proof.Machine.execFcvtT f p d a toFloat s
  | .vadd sat f d a b pr => Sys2Proof.Machine.execVadd sat f d a b pr s
  | .vsub sat f d a b pr => Sys2Proof.Machine.execVsub sat f d a b pr s
  | .vmul f d a b pr => Sys2Proof.Machine.execVmul f d a b pr s
  | .vmulh f d a b pr => Sys2Proof.Machine.execVmulh f d a b pr s
  | .vmin f d a b pr => Sys2Proof.Machine.execVmin f d a b pr s
  | .vmax f d a b pr => Sys2Proof.Machine.execVmax f d a b pr s
  | .vabs f d a pr => Sys2Proof.Machine.execVabs f d a pr s
  | .vneg f d a pr => Sys2Proof.Machine.execVneg f d a pr s
  | .vand f d a b pr => Sys2Proof.Machine.execVand f d a b pr s
  | .vor f d a b pr => Sys2Proof.Machine.execVor f d a b pr s
  | .vxor f d a b pr => Sys2Proof.Machine.execVxor f d a b pr s
  | .vandn f d a b pr => Sys2Proof.Machine.execVandn f d a b pr s
  | .vshl f d a b pr => Sys2Proof.Machine.execVshl f d a b pr s
  | .vshr f d a b pr => Sys2Proof.Machine.execVshr f d a b pr s
  | .vsar f d a b pr => Sys2Proof.Machine.execVsar f d a b pr s
  | .vror f d a b pr => Sys2Proof.Machine.execVror f d a b pr s
  | .vfma f d a b pr => Sys2Proof.Machine.execVfma f d a b pr s
  | .vfms f d a b pr => Sys2Proof.Machine.execVfms f d a b pr s
  | .vfnma f d a b pr => Sys2Proof.Machine.execVfnma f d a b pr s
  | .vcmpEq f d a b pr => Sys2Proof.Machine.execVcmpEq f d a b pr s
  | .vcmpLt f d a b pr => Sys2Proof.Machine.execVcmpLt f d a b pr s
  | .vcmpLe f d a b pr => Sys2Proof.Machine.execVcmpLe f d a b pr s
  | .vcmpUn f d a b pr => Sys2Proof.Machine.execVcmpUn f d a b pr s
  | .vsel f d a b pr => Sys2Proof.Machine.execVsel f d a b pr s
  | .vperm f d a b pr => Sys2Proof.Machine.execVperm f d a b pr s
  | .vbcst f d a pr => Sys2Proof.Machine.execVbcst f d a pr s
  | .vext f d a b => Sys2Proof.Machine.execVext f d a b s
  | .vredSum f d a pr => Sys2Proof.Machine.execVredSum f d a pr s
  | .vredMax f d a pr => Sys2Proof.Machine.execVredMax f d a pr s
  | .vredMin f d a pr => Sys2Proof.Machine.execVredMin f d a pr s
  | .vredSsq f d a pr => Sys2Proof.Machine.execVredSsq f d a pr s
  | .vexp2 f d a pr => Sys2Proof.Machine.execVexp2 f d a pr s
  | .vlog2 f d a pr => Sys2Proof.Machine.execVlog2 f d a pr s
  | .vrcp f d a pr => Sys2Proof.Machine.execVrcp f d a pr s
  | .vrsq f d a pr => Sys2Proof.Machine.execVrsq f d a pr s
  | .vcvt f d a pr tgt => Sys2Proof.Machine.execVcvt f d a pr tgt s
  | .vscale f d a pr imm => Sys2Proof.Machine.execVscale f d a pr imm s
  | .vli f d pr imm => Sys2Proof.Machine.execVli f d pr imm s
  | .vldlUnit f d a pr => Sys2Proof.Machine.execVldlUnit f d a pr s
  | .vldlStr f d a b pr => Sys2Proof.Machine.execVldlStr f d a b pr s
  | .vldlGat f d a b pr => Sys2Proof.Machine.execVldlGat f d a b pr s
  | .vldlBc f d a pr => Sys2Proof.Machine.execVldlBc f d a pr s
  | .vstlUnit f d a pr => Sys2Proof.Machine.execVstlUnit f d a pr s
  | .vstlStr f d a b pr => Sys2Proof.Machine.execVstlStr f d a b pr s
  | .vstlSca f d a b pr => Sys2Proof.Machine.execVstlSca f d a b pr s
  | .pand d a b => Sys2Proof.Machine.execPand d a b s
  | .por d a b => Sys2Proof.Machine.execPor d a b s
  | .pxor d a b => Sys2Proof.Machine.execPxor d a b s
  | .pnot d a => Sys2Proof.Machine.execPnot d a s
  | .pcnt d a => Sys2Proof.Machine.execPcnt d a s
  | .pffs d a => Sys2Proof.Machine.execPffs d a s
  | .pset d a => Sys2Proof.Machine.execPset d a s
  | .tld f d a b => Sys2Proof.Machine.execTld f d a b s
  | .tldT f d a b => Sys2Proof.Machine.execTldT f d a b s
  | .tst f d a b => Sys2Proof.Machine.execTst f d a b s
  | .tmma d a b => Sys2Proof.Machine.execTmma d a b s
  | .tmmaBt d a b => Sys2Proof.Machine.execTmmaBt d a b s
  | .tmmaSp d a b => Sys2Proof.Machine.execTmmaSp d a b s
  | .azero d => Sys2Proof.Machine.execAzero d s
  | .ald d a => Sys2Proof.Machine.execAld d a s
  | .ast d a => Sys2Proof.Machine.execAst d a s
  | .aadd d a => Sys2Proof.Machine.execAadd d a s
  | .acvt f d a mode => Sys2Proof.Machine.execAcvt f d a mode s
  | .acvtV f d a b => Sys2Proof.Machine.execAcvtV f d a b s
  | .tmov f d a b => Sys2Proof.Machine.execTmov f d a b s
  | .ttrn f d a => Sys2Proof.Machine.execTtrn f d a s
  | .rpt n imm => Sys2Proof.Machine.execRpt n imm s
  | .rpts field imm => Sys2Proof.Machine.execRpts field imm s
  | .rptw => Sys2Proof.Machine.execRptw s
  | .rptx => Sys2Proof.Machine.execRptx s
  | .ldg d a imm sz o => Sys2Proof.Machine.execLdg d a imm sz o s
  | .ldgn d a imm sz o => Sys2Proof.Machine.execLdgn d a imm sz o s
  | .stg d a imm sz o => Sys2Proof.Machine.execStg d a imm sz o s
  | .amoadd asz d a b o => Sys2Proof.Machine.execAmoadd asz d a b o s
  | .amoand asz d a b o => Sys2Proof.Machine.execAmoand asz d a b o s
  | .amoor asz d a b o => Sys2Proof.Machine.execAmoor asz d a b o s
  | .amoxor asz d a b o => Sys2Proof.Machine.execAmoxor asz d a b o s
  | .amomin asz d a b o => Sys2Proof.Machine.execAmomin asz d a b o s
  | .amomax asz d a b o => Sys2Proof.Machine.execAmomax asz d a b o s
  | .amominn asz d a b o => Sys2Proof.Machine.execAmominn asz d a b o s
  | .amomaxn asz d a b o => Sys2Proof.Machine.execAmomaxn asz d a b o s
  | .amoswp asz d a b o => Sys2Proof.Machine.execAmoswp asz d a b o s
  | .amocas asz d a b o => Sys2Proof.Machine.execAmocas asz d a b o s
  | .fence rs scope kinds => Sys2Proof.Machine.execFence rs scope kinds s
  | .cclean a o => Sys2Proof.Machine.execCclean a o s
  | .cinv a o => Sys2Proof.Machine.execCinv a o s
  | .cdisc a o => Sys2Proof.Machine.execCdisc a o s
  | .pref a o => Sys2Proof.Machine.execPref a o s
  | .cpin d a => Sys2Proof.Machine.execCpin d a s
  | .cunpin d a => Sys2Proof.Machine.execCunpin d a s
  | .gaddr d a b => Sys2Proof.Machine.execGaddr d a b s
  | .mkga d a b => Sys2Proof.Machine.execMkga d a b s
  | .ldpw d n b sz => Sys2Proof.Machine.execLdpw d n b sz s
  | .oinit d a b => Sys2Proof.Machine.execOinit d a b s
  | .odestroy d a => Sys2Proof.Machine.execOdestroy d a s
  | .oquery d a b => Sys2Proof.Machine.execOquery d a b s
  | .okill d a => Sys2Proof.Machine.execOkill d a s
  | .cntadd d a b => Sys2Proof.Machine.execCntadd d a b s
  | .cntaddP a b => Sys2Proof.Machine.execCntaddP a b s
  | .cntwait d a b => Sys2Proof.Machine.execCntwait d a b s
  | .cntwaitNw d a b => Sys2Proof.Machine.execCntwaitNw d a b s
  | .bararr d a => Sys2Proof.Machine.execBararr d a s
  | .barwait d a b => Sys2Proof.Machine.execBarwait d a b s
  | .baraw d a => Sys2Proof.Machine.execBaraw d a s
  | .baradj d a b => Sys2Proof.Machine.execBaradj d a b s
  | .tlkacq d a => Sys2Proof.Machine.execTlkacq d a s
  | .tlkacqNw d a => Sys2Proof.Machine.execTlkacqNw d a s
  | .tlkrel d a => Sys2Proof.Machine.execTlkrel d a s
  | .bqpush d a b => Sys2Proof.Machine.execBqpush d a b s
  | .bqpushNw d a b => Sys2Proof.Machine.execBqpushNw d a b s
  | .bqpop d a b => Sys2Proof.Machine.execBqpop d a b s
  | .bqpopNw d a b => Sys2Proof.Machine.execBqpopNw d a b s
  | .cvwait d a => Sys2Proof.Machine.execCvwait d a s
  | .cvsig d a => Sys2Proof.Machine.execCvsig d a s
  | .cvbc d a => Sys2Proof.Machine.execCvbc d a s
  | .vcpub d a => Sys2Proof.Machine.execVcpub d a s
  | .vcfin d a => Sys2Proof.Machine.execVcfin d a s
  | .vcrsv d a => Sys2Proof.Machine.execVcrsv d a s
  | .vcstop d a => Sys2Proof.Machine.execVcstop d a s
  | .vcsub d a b => Sys2Proof.Machine.execVcsub d a b s
  | .vcack d a b => Sys2Proof.Machine.execVcack d a b s
  | .vcchk d => Sys2Proof.Machine.execVcchk d s
  | .vcunsub d a b => Sys2Proof.Machine.execVcunsub d a b s
  | .cpy d a b => Sys2Proof.Machine.execCpy d a b s
  | .cpyt d a b => Sys2Proof.Machine.execCpyt d a b s
  | .cpyl d a b => Sys2Proof.Machine.execCpyl d a b s
  | .twany d a => Sys2Proof.Machine.execTwany d a s
  | .twall d a => Sys2Proof.Machine.execTwall d a s
  | .tffr d a => Sys2Proof.Machine.execTffr d a s
  | .tclr a => Sys2Proof.Machine.execTclr a s
  | .bscall d a imm => Sys2Proof.Machine.execBscall d a imm s
  | .bspart d a b => Sys2Proof.Machine.execBspart d a b s
  | .bsstat d a => Sys2Proof.Machine.execBsstat d a s
  | .bsabort d a => Sys2Proof.Machine.execBsabort d a s
  | .xfer d a b => Sys2Proof.Machine.execXfer d a b s
  | .xferCh d a b => Sys2Proof.Machine.execXferCh d a b s
  | .coll d a b => Sys2Proof.Machine.execColl d a b s
  | .mcst d a b => Sys2Proof.Machine.execMcst d a b s
  | .regwin d a => Sys2Proof.Machine.execRegwin d a s
  | .revwin d a b => Sys2Proof.Machine.execRevwin d a b s
  | .crr d idx => Sys2Proof.Machine.execCrr d idx s
  | .crw a idx => Sys2Proof.Machine.execCrw a idx s
  | .crx d a idx => Sys2Proof.Machine.execCrx d a idx s
  | .eret => Sys2Proof.Machine.execEret s
  | .trap n => Sys2Proof.Machine.execTrap n s
  | .hndset d a b => Sys2Proof.Machine.execHndset d a b s
  | .ctxsave d a b => Sys2Proof.Machine.execCtxsave d a b s
  | .ctxload d a b => Sys2Proof.Machine.execCtxload d a b s
  | .tlbinv d a b => Sys2Proof.Machine.execTlbinv d a b s
  | .registerWrite off v => Sys2Proof.Machine.execRegisterWrite off v s
  | .asyncTrap f => Sys2Proof.Machine.execAsyncTrap f s
  | .fetchBlock q => Sys2Proof.Machine.execFetchBlock q s
  | .fetchAge q c => Sys2Proof.Machine.execFetchAge q c s
  | .issueRotation c => Sys2Proof.Machine.execIssueRotation c s
  | .rptIterationIssue f => Sys2Proof.Machine.execRptIterationIssue f s
  | .tmmaComplete c => Sys2Proof.Machine.execTmmaComplete c s
  | .matrixResidueError c => Sys2Proof.Machine.execMatrixResidueError c s
  | .matrixBankExchange c => Sys2Proof.Machine.execMatrixBankExchange c s
  | .bankHoldExpiry c => Sys2Proof.Machine.execBankHoldExpiry c s
  | .quantExpiry f => Sys2Proof.Machine.execQuantExpiry f s
  | .jobCardPop p l => Sys2Proof.Machine.execJobCardPop p l s
  | .cardWaitWake n => Sys2Proof.Machine.execCardWaitWake n s
  | .dealChunk p l => Sys2Proof.Machine.execDealChunk p l s
  | .gangDeal p l => Sys2Proof.Machine.execGangDeal p l s
  | .chunkLoadComplete f => Sys2Proof.Machine.execChunkLoadComplete f s
  | .chunkEnd n => Sys2Proof.Machine.execChunkEnd n s
  | .objectReply n => Sys2Proof.Machine.execObjectReply n s
  | .wakeSavedContext n => Sys2Proof.Machine.execWakeSavedContext n s
  | .spillRingWake n => Sys2Proof.Machine.execSpillRingWake n s
  | .agentCntadd n => Sys2Proof.Machine.execAgentCntadd n s
  | .parentArrival n => Sys2Proof.Machine.execParentArrival n s
  | .parentCompleteWake n => Sys2Proof.Machine.execParentCompleteWake n s
  | .cvLockRelease n => Sys2Proof.Machine.execCvLockRelease n s
  | .cvMovedAcquire n => Sys2Proof.Machine.execCvMovedAcquire n s
  | .lockAbandon n => Sys2Proof.Machine.execLockAbandon n s
  | .waiterRemoval n => Sys2Proof.Machine.execWaiterRemoval n s
  | .deadContextMessage n => Sys2Proof.Machine.execDeadContextMessage n s
  | .settleAdd n => Sys2Proof.Machine.execSettleAdd n s
  | .refirePush n => Sys2Proof.Machine.execRefirePush n s
  | .refireLost n => Sys2Proof.Machine.execRefireLost n s
  | .distributorVcack n => Sys2Proof.Machine.execDistributorVcack n s
  | .vcNotice n => Sys2Proof.Machine.execVcNotice n s
  | .homeStorePerform n => Sys2Proof.Machine.execHomeStorePerform n s
  | .loadReply n => Sys2Proof.Machine.execLoadReply n s
  | .storeAck n => Sys2Proof.Machine.execStoreAck n s
  | .storeRefusal n => Sys2Proof.Machine.execStoreRefusal n s
  | .pageWalk c asid va => Sys2Proof.Machine.execPageWalk c asid va s
  | .mapcmdMap => Sys2Proof.Machine.execMapcmdMap s
  | .mapcmdUnmap => Sys2Proof.Machine.execMapcmdUnmap s
  | .mapcmdComplete => Sys2Proof.Machine.execMapcmdComplete s
  | .meshCrcReplay l => Sys2Proof.Machine.execMeshCrcReplay l s
  | .meshBeacon l => Sys2Proof.Machine.execMeshBeacon l s
  | .copyBlockStart c k => Sys2Proof.Machine.execCopyBlockStart c k s
  | .copyCommandComplete c k => Sys2Proof.Machine.execCopyCommandComplete c k s
  | .copyBlockComplete c k => Sys2Proof.Machine.execCopyBlockComplete c k s
  | .copyFault c k => Sys2Proof.Machine.execCopyFault c k s
  | .cpytRowWrite sl => Sys2Proof.Machine.execCpytRowWrite sl s
  | .busCycle sl => Sys2Proof.Machine.execBusCycle sl s
  | .mossCallStart sl => Sys2Proof.Machine.execMossCallStart sl s
  | .mossCallComplete sl => Sys2Proof.Machine.execMossCallComplete sl s
  | .budgetExpiry sl => Sys2Proof.Machine.execBudgetExpiry sl s
  | .switchOut f => Sys2Proof.Machine.execSwitchOut f s
  | .contextRestore h f => Sys2Proof.Machine.execContextRestore h f s
  | .gangSwitch j => Sys2Proof.Machine.execGangSwitch j s
  | .gangDrainTimeout j => Sys2Proof.Machine.execGangDrainTimeout j s
  | .quadReset c => Sys2Proof.Machine.execQuadReset c s
  | .correctableError a => Sys2Proof.Machine.execCorrectableError a s
  | .uncorrectableError a => Sys2Proof.Machine.execUncorrectableError a s
  | .dieFence d => Sys2Proof.Machine.execDieFence d s
  | .masterElection => Sys2Proof.Machine.execMasterElection s
  | .fabricPacketArrival p => Sys2Proof.Machine.execFabricPacketArrival p s
  | .windowRevoked w => Sys2Proof.Machine.execWindowRevoked w s
  | .fabricAck p => Sys2Proof.Machine.execFabricAck p s
  | .fabricRefusal p => Sys2Proof.Machine.execFabricRefusal p s
  | .linkCrcFail port => Sys2Proof.Machine.execLinkCrcFail port s
  | .linkReplayRequest port lack => Sys2Proof.Machine.execLinkReplayRequest port lack s
  | .linkSilenceTimeout port => Sys2Proof.Machine.execLinkSilenceTimeout port s
  | .linkBeacon port => Sys2Proof.Machine.execLinkBeacon port s
  | .endToEndTimeout n => Sys2Proof.Machine.execEndToEndTimeout n s
  | .purgeMarker p => Sys2Proof.Machine.execPurgeMarker p s
  | .purged p => Sys2Proof.Machine.execPurged p s
  | .purgeTimeout n => Sys2Proof.Machine.execPurgeTimeout n s
  | .transferWaitWake n => Sys2Proof.Machine.execTransferWaitWake n s
  | .transferComplete c k => Sys2Proof.Machine.execTransferComplete c k s
  | .transferError c k => Sys2Proof.Machine.execTransferError c k s
  | .multicastFork n => Sys2Proof.Machine.execMulticastFork n s
  | .combineArrival n => Sys2Proof.Machine.execCombineArrival n s
  | .collectiveAbort n => Sys2Proof.Machine.execCollectiveAbort n s
  | .portRetrain port => Sys2Proof.Machine.execPortRetrain port s
  | .hostBar4Read off len => Sys2Proof.Machine.execHostBar4Read off len s
  | .hostBar4Write off data => Sys2Proof.Machine.execHostBar4Write off data s
  | .hostBqpushNw slot => Sys2Proof.Machine.execHostBqpushNw slot s
  | .hostCntadd slot => Sys2Proof.Machine.execHostCntadd slot s
  | .hostCntwaitNw slot => Sys2Proof.Machine.execHostCntwaitNw slot s
  | .hostOquery slot => Sys2Proof.Machine.execHostOquery slot s
  | .partitionCreate p => Sys2Proof.Machine.execPartitionCreate p s
  | .partitionRemove p => Sys2Proof.Machine.execPartitionRemove p s
  | .jrnstFree f v => Sys2Proof.Machine.execJrnstFree f v s
  | .faultaClear f v => Sys2Proof.Machine.execFaultaClear f v s
  | .arrfltClear f v => Sys2Proof.Machine.execArrfltClear f v s
  | .powerOnReset => Sys2Proof.Machine.execPowerOnReset s
  | .functionReady id failed => Sys2Proof.Machine.execFunctionReady id failed s
  | .firmwareLoad => Sys2Proof.Machine.execFirmwareLoad s
  | .controlStoreInstall => Sys2Proof.Machine.execControlStoreInstall s
  | .attestReport => Sys2Proof.Machine.execAttestReport s
  | .freeze => Sys2Proof.Machine.execFreeze s
  | .resume => Sys2Proof.Machine.execResume s
  | .traceRecordEnable => Sys2Proof.Machine.execTraceRecordEnable s
  | .replayEnable => Sys2Proof.Machine.execReplayEnable s
  | .replayDivergence => Sys2Proof.Machine.execReplayDivergence s
  | .thermalThrottle idle => Sys2Proof.Machine.execThermalThrottle idle s
  | .hostBar2Write off data => Sys2Proof.Machine.execHostBar2Write off data s
  | .linkPacketReceive port p => Sys2Proof.Machine.execLinkPacketReceive port p s
  | .quadResetComplete c => Sys2Proof.Machine.execQuadResetComplete c s

end Sys2Proof.Machine
end

