-- ==== Sys2Proof/Machine/Step.lean ====
section
/-! DEFINITION. One step of the machine, and a program placed from outside. -/

namespace Sys2Proof.Machine

/-- One step (R131, R236): the turn that `State.advanceBy` gives, its instruction executed by `exec`. -/
def step (s : State) : Host.Outcome State Fault Refusal := s.advanceBy exec

/-- The state with an instruction where `step` fetches its next one (log entry 6). -/
def State.withFetchWord (s : State) (nbits w : Nat) : State := s.placeGroup (tableHalves nbits w)

end Sys2Proof.Machine
end

