-- ==== Sys2Proof/Safety.lean ====
section
/-! DEFINITION. What counts as a safe run: each step answers a next state. -/

namespace Sys2Proof

/-- From a state, `n` steps all answer a next state. -/
def SafeFor (n : Nat) (s : Machine.State) : Prop := ∃ t, core.run n s = .next t

/-- From a state, no number of steps ends in a fault or a refusal. -/
def Safe (s : Machine.State) : Prop := ∀ n, SafeFor n s

end Sys2Proof
end

