-- ==== Sys2Proof/Certificates/Slice0/Obligations.lean ====
section
/-! DEFINITION. What this model is claimed to do, for the provers. Every statement is about every state that meets its
hypotheses, reachable or not. A group that the scalar pipeline issues has `issue.inRep` false; one that the repeat
sequencer issues from its entries has it true (R20). -/

namespace Sys2Proof.Claims

open Sys2Proof.Machine

/-- The address of the group after the one that is executing. -/
def pcAfter (s : State) : Word := s.fr.pc + .ofNat 64 (2 * s.issue.len)

/-- The issuing frame with S[d] set, nothing set when d is s0 (R10, R73), and its PC past the group. -/
def scalarResult (s : State) (d : SReg) (w : Word) : State := s.putFr { s.fr.setS d w with pc := pcAfter s }

/-- The issuing frame with its PC past the group and nothing else changed. -/
def onlyAdvances (s : State) : State := s.putFr { s.fr with pc := pcAfter s }

/-- The issuing frame with its PC at an address and nothing else changed. -/
def goesTo (s : State) (a : Word) : State := s.putFr { s.fr with pc := a }

/-- The issuing frame with a floating-point result in S[d], zero above it, its flags raised in FCSR bits 12 to 8, and its
PC past the group. -/
def floatResult (s : State) (d : SReg) (x : Nat × Flags) : State :=
  s.putFr { s.fr.setS d (.ofNat 64 x.1) with fcsr := s.fr.fcsr ||| (x.2.setWidth 64 <<< 8), pc := pcAfter s }

/-- A frame of the issuing context once the group has gone: its PC past the group, or for a captured group its repeat
sequencer moved on (R20, R24). -/
def past (s : State) (f : Frame) : Frame :=
  if s.issue.inRep then { f with rep := f.rep.advance } else { f with pc := f.pc + .ofNat 64 (2 * s.issue.len) }

/-- Element e of a format is active under a predicate (R99): the bit of its lane. -/
def active (f : Fmt) (p : Word) (e : Nat) : Bool := p.getLsbD (e * 64 / fmtCount f)

/-- Element e of a vector register. -/
def elem (f : Fmt) (v : VVal) (e : Nat) : Nat := (elems f v).getD e 0
/-- The bytes that hold no t6 element, 192 to 255, are zero (R57). -/
def TailZero (v : VVal) : Prop := ∀ k, 192 ≤ k → v.toList.getD k 0 = 0

/-- One node of R70's tree over the active elements: level 0 holds them, level k + 1 combines neighbours of level k. -/
def treeNode {α : Type} (combine : α → α → α) (leaf : Nat → Option α) : Nat → Nat → Option α
  | 0, j => leaf j
  | k + 1, j =>
    match treeNode combine leaf k (2 * j), treeNode combine leaf k (2 * j + 1) with
    | some x, some y => some (combine x y)
    | some x, none => some x
    | none, y => y

/-- The issuing frame owns the matrix bank, in a class that may, and no multiply that has started occupies the unit. -/
def hasBank (s : State) : Prop :=
  2 ≤ s.fr.cls.toNat ∧ s.co.owner = some (.ofNat 2 s.cur) ∧ s.co.tmma = none

/-- A byte of a tile register. -/
def tileByte (t : TileVal) (k : Nat) : Nat := (t.toList.getD k 0).toNat

/-- Element (r, c) of a tile register (R57, R114). -/
def tileElem (f : Fmt) (t : TileVal) (r c : Nat) : Nat :=
  if f = .t6 then
    let g := 64 * r + 3 * (c / 4)
    (tileByte t g + 256 * tileByte t (g + 1) + 65536 * tileByte t (g + 2)) / 64 ^ (c % 4) % 64
  else if f = .t8 then tileByte t (64 * r + c)
  else tileByte t (64 * r + 2 * c) + 256 * tileByte t (64 * r + 2 * c + 1)

/-- Element (i, j) of an accumulator (R114). -/
def accElem (x : AccVal) (i j : Nat) : BitVec 32 := x.toList.getD (32 * i + j) 0

/-- The group is past and the state of the issuing frame's core is as given. -/
def withCore (s : State) (f : Frame) (c : Core) : State := (s.putFr (past s f)).putCo c

/-- The address of a memory row of a tile access (R115). -/
def rowAt (s : State) (a b : SReg) (r : Nat) : Nat := (s.srcA a + .ofNat 64 r * s.srcB b).toNat

/-- An instruction executed in a state answers a given next state. -/
abbrev Gives (i : Instr) (s t : State) : Prop := exec i s = .next t

/-- FCSR of the issuing frame after flags were raised over a family of results: bits 12 to 8 accumulate them, the other
bits stand (R72). -/
def Raised (s t : State) (n m : Nat) (flags : Nat → Nat → Flags) : Prop :=
  ∀ k, t.fr.fcsr.getLsbD k = true ↔
    s.fr.fcsr.getLsbD k = true ∨ (8 ≤ k ∧ ∃ i j, i < n ∧ j < m ∧ (flags i j).getLsbD (k - 8) = true)

/-- Every byte that lies outside a range reads in one state as in another. -/
def SameOutside (s t : State) (key n : Nat) : Prop := ∀ a, a < key ∨ key + n ≤ a → t.mem.get a = s.mem.get a

/-- The scalar register that an instruction of page 0 or 1 writes (R73, R79, R84, R85, R93). -/
def scalarDest : Instr → Option SReg
  | .add d _ _ | .sub d _ _ | .and d _ _ | .or d _ _ | .xor d _ _ | .andn d _ _ | .sll d _ _ | .srl d _ _ | .sra d _ _
  | .ror d _ _ | .slt d _ _ | .sltn d _ _ | .mul d _ _ | .mulh d _ _ | .mulhn d _ _ | .seq d _ _ | .div d _ _
  | .divn d _ _ | .rem d _ _ | .remn d _ _ | .min d _ _ | .max d _ _ | .minn d _ _ | .maxn d _ _ | .addi d _ _
  | .andi d _ _ | .ori d _ _ | .xori d _ _ | .slli d _ _ | .srli d _ _ | .srai d _ _ | .slti d _ _ | .li d _ | .lih d _
  | .clz d _ | .ctz d _ | .popc d _ | .sext d _ _ | .fadd _ d _ _ | .fsub _ d _ _ | .fmul _ d _ _ | .fdiv _ d _ _
  | .fmin _ d _ _ | .fmax _ d _ _ | .fsgnj _ d _ _ | .fsqrt _ d _ | .fma _ d _ _ | .fms _ d _ _ | .fnma _ d _ _
  | .feq _ d _ _ | .flt _ d _ _ | .fle _ d _ _ | .fun _ d _ _ | .fclass _ d _ | .fabs _ d _ | .fneg _ d _
  | .fcvtFI _ _ d _ | .fcvtIF _ _ d _ | .fcvtFF _ d _ | .fcvtT _ _ _ d _ => some d
  | .jal _ | .jalr _ => some 1
  | _ => none

/-- The group of an instruction carries the PAGE prefix of a page (R29). -/
def onPage (page : Nat) (i : Instr) : Prop :=
  ∃ q rest, q < 32 ∧ encode i = BitVec.ofNat 16 (0xFA00 + 32 * page + q) :: rest

/-- S[d] and S[d+1] set; with d = 0 neither is (R165). -/
def twoSet (f : Frame) (d : SReg) (x y : Word) : Frame := if d = 0 then f else (f.setS d x).setS (d + 1) y

/-- A parked frame has taken a precise trap at the group it parked at (R166, R168, R309, R310). -/
def TrapAtPark (f g : Frame) (cause detail : Nat) (val : Word) : Prop :=
  g.status = .ready ∧ g.trappc = f.parkPc ∧ g.trapval = val ∧ g.trapc.toNat % 2 ^ 16 = cause + 256 * detail ∧
    g.inS = true ∧ g.pc.toNat = f.hndbase.toNat / 65536 * 65536 + 64 * cause

/-- RPT, RPTS, RPTW and RPTX. -/
def isRepeat : Instr → Bool
  | .rpt _ _ | .rpts _ _ | .rptw | .rptx => true
  | _ => false

/-- R126's groups with a local address operand. -/
def hasLocalAddress : Instr → Bool
  | .vldlUnit _ _ _ _ | .vldlStr _ _ _ _ _ | .vldlGat _ _ _ _ _ | .vldlBc _ _ _ _ | .vstlUnit _ _ _ _
  | .vstlStr _ _ _ _ _ | .vstlSca _ _ _ _ _ | .tld _ _ _ _ | .tldT _ _ _ _ | .tst _ _ _ _ | .ald _ _ | .ast _ _
  | .tmmaSp _ _ _ => true
  | _ => false

/-- TMMA, TMMA.BT and TMMA.SP. -/
def scalesRead : Instr → Bool
  | .tmma _ _ _ | .tmmaBt _ _ _ | .tmmaSp _ _ _ => true
  | _ => false

/-- The magnitude mant * 2^exp of an IEEE code without its sign; that of the infinity's code stands for the power of two
beyond the largest finite magnitude (R55). -/
def codeMag (f : FloatFmt) (c : Nat) : Nat × Int :=
  if c < 2 ^ f.fbits then (c, f.qmin) else (2 ^ f.fbits + c % 2 ^ f.fbits, f.qmin + (c / 2 ^ f.fbits : Nat) - 1)

/-- R61 to R63: a result is a nonzero exact value rounded once. `lt k q` and `gt k q` say that its magnitude lies below, above
k * 2^q. It lies at a code or between two neighbours, of which RM picks one; a value that is no code's raises NX, one that
rounds past the largest finite magnitude OF, a tiny inexact one UF, and under FZ a tiny one is a zero of its sign. -/
def RoundsTo (f : FloatFmt) (m : Mode) (neg : Bool) (lt gt : Nat → Int → Prop) (r : Nat × Flags) : Prop :=
  let sign := if neg then 2 ^ (f.ebits + f.fbits) else 0
  let up (k : Nat) (q : Int) (odd : Prop) : Prop :=
    (m.rm = 0 ∧ (gt (2 * k + 1) (q - 1) ∨ (odd ∧ ¬lt (2 * k + 1) (q - 1)))) ∨ (m.rm = 2 ∧ neg = false) ∨
    (m.rm = 3 ∧ neg = true) ∨ (m.rm = 4 ∧ ¬lt (2 * k + 1) (q - 1))
  let h := 2 ^ f.fbits
  let tiny := lt h f.qmin ∧ ¬(gt (2 * h - 1) (f.qmin - 1) ∧ up (2 * h - 1) (f.qmin - 1) True)
  let overflows : Prop := r.2 = flagOF ||| flagNX ∧
    r.1 = sign + (if m.rm = 1 ∨ (m.rm = 2 ∧ neg = true) ∨ (m.rm = 3 ∧ neg = false) then f.infBits - 1 else f.infBits)
  (¬lt (codeMag f f.infBits).1 (codeMag f f.infBits).2 → overflows) ∧
  ∀ c, c < f.infBits → ¬lt (codeMag f c).1 (codeMag f c).2 → lt (codeMag f (c + 1)).1 (codeMag f (c + 1)).2 →
    let inexact := gt (codeMag f c).1 (codeMag f c).2
    let rises := inexact ∧ up (codeMag f c).1 (codeMag f c).2 (c % 2 = 1)
    (tiny → m.fz = true → r = (sign, flagUF ||| flagNX)) ∧
    (¬(tiny ∧ m.fz = true) →
      (rises → c + 1 = f.infBits → overflows) ∧
      (rises → c + 1 ≠ f.infBits → r.1 = sign + c + 1) ∧ (¬rises → r.1 = sign + c) ∧
      (¬inexact → r.2 = 0) ∧
      (inexact → ¬(rises ∧ c + 1 = f.infBits) → (tiny → r.2 = flagNX ||| flagUF) ∧ (¬tiny → r.2 = flagNX)))

/-- One magnitude lies below another: ma * 2^ea < mb * 2^eb. -/
def magLt (ma : Nat) (ea : Int) (mb : Nat) (eb : Int) : Prop :=
  ma * 2 ^ (ea - min ea eb).toNat < mb * 2 ^ (eb - min ea eb).toNat

/-- Contexts wait at a cell, their entries in the slice's RAM. -/
def ContextsWait (s : State) (cell : Nat) : Prop := ∀ w ∈ s.waitsOf cell, (∃ id, w.who = .ctx id) ∧ w.spilled = false

/-- One state has sent, beyond the messages of another, a wake with a status and a value to each of some waiters, in list order
(R161, R164). -/
def Wakes (s t : State) (ws : List Wait) (status : Nat) (value : Wait → Nat) : Prop :=
  ∃ ms : List Reply, t.msgs = s.msgs ++ ms.map Msg.reply ∧
    ms.map (fun m => (m.who, m.status.toNat, m.value.toNat)) = ws.map (fun w => (w.who, status, value w))

/-- A base word of the R format (R26). -/
def baseR (major d a b fn : Nat) : Half := .ofNat 16 (2048 * major + 256 * d + 32 * a + 4 * b + fn)

/-- The state in which a fetched group executes: its frame current, the agenda moved on, the group's place latched, and
the fetched lines in the quad's instruction cache. -/
def executing (s : State) (n : Nat) (rest : List Turn) (i : Issue) (quads : Tbl Quad) : State :=
  { s with agenda := rest, cur := n, issue := i, quads := quads }

end Sys2Proof.Claims

section ClaimsOfTheModel

open Sys2Proof Sys2Proof.Machine Sys2Proof.Claims

/-! ### Page 0 -/

/-- R75: every register-to-register integer instruction but the divisions gives S[d] the value of its table row, with
64-bit registers, arithmetic modulo 2^64 and the shift amount S[b][5:0]; the PC goes past the group and nothing else
changes. -/
def Sys2Proof.Claims.IntegerRegisterResults : Prop :=
  ∀ (d a b : SReg) (s : State), s.issue.inRep = false →
    let x := s.rs a
    let y := s.rs b
    let sh := y.toNat % 64
    Gives (.add d a b) s (scalarResult s d (x + y)) ∧
    Gives (.sub d a b) s (scalarResult s d (x - y)) ∧
    Gives (.and d a b) s (scalarResult s d (x &&& y)) ∧
    Gives (.or d a b) s (scalarResult s d (x ||| y)) ∧
    Gives (.xor d a b) s (scalarResult s d (x ^^^ y)) ∧
    Gives (.andn d a b) s (scalarResult s d (x &&& ~~~y)) ∧
    Gives (.sll d a b) s (scalarResult s d (.ofNat 64 (x.toNat * 2 ^ sh))) ∧
    Gives (.srl d a b) s (scalarResult s d (.ofNat 64 (x.toNat / 2 ^ sh))) ∧
    Gives (.sra d a b) s (scalarResult s d (.ofInt 64 (x.toInt / 2 ^ sh))) ∧
    Gives (.ror d a b) s (scalarResult s d (.ofNat 64 (x.toNat / 2 ^ sh + x.toNat * 2 ^ (64 - sh)))) ∧
    Gives (.slt d a b) s (scalarResult s d (if x.toInt < y.toInt then 1 else 0)) ∧
    Gives (.sltn d a b) s (scalarResult s d (if x.toNat < y.toNat then 1 else 0)) ∧
    Gives (.mul d a b) s (scalarResult s d (.ofNat 64 (x.toNat * y.toNat))) ∧
    Gives (.mulh d a b) s (scalarResult s d (.ofInt 64 (x.toInt * y.toInt / 2 ^ 64))) ∧
    Gives (.mulhn d a b) s (scalarResult s d (.ofNat 64 (x.toNat * y.toNat / 2 ^ 64))) ∧
    Gives (.seq d a b) s (scalarResult s d (if x = y then 1 else 0)) ∧
    Gives (.min d a b) s (scalarResult s d (if x.toInt < y.toInt then x else y)) ∧
    Gives (.max d a b) s (scalarResult s d (if x.toInt < y.toInt then y else x)) ∧
    Gives (.minn d a b) s (scalarResult s d (if x.toNat < y.toNat then x else y)) ∧
    Gives (.maxn d a b) s (scalarResult s d (if x.toNat < y.toNat then y else x))

/-- R77, R78, R79: the operations on one register and on the extended immediate, LI and LIH. CLZ, CTZ and POPC are said
by what they count. -/
def Sys2Proof.Claims.ImmediateAndUnaryResults : Prop :=
  ∀ (d a : SReg) (imm : Word) (s : State), s.issue.inRep = false →
    let x := s.rs a
    Gives (.addi d a imm) s (scalarResult s d (x + imm)) ∧
    Gives (.andi d a imm) s (scalarResult s d (x &&& imm)) ∧
    Gives (.ori d a imm) s (scalarResult s d (x ||| imm)) ∧
    Gives (.xori d a imm) s (scalarResult s d (x ^^^ imm)) ∧
    Gives (.slli d a imm) s (scalarResult s d (x <<< (imm.toNat % 64))) ∧
    Gives (.srli d a imm) s (scalarResult s d (x >>> (imm.toNat % 64))) ∧
    Gives (.srai d a imm) s (scalarResult s d (x.sshiftRight (imm.toNat % 64))) ∧
    Gives (.slti d a imm) s (scalarResult s d (if x.toInt < imm.toInt then 1 else 0)) ∧
    Gives (.li d imm) s (scalarResult s d imm) ∧
    Gives (.lih d imm) s (scalarResult s d ((s.rs d &&& 0x0000FFFFFFFFFFFF#64) ||| (imm <<< 48))) ∧
    (∃ n : Nat, Gives (.clz d a) s (scalarResult s d (.ofNat 64 n)) ∧ n ≤ 64 ∧ x.toNat < 2 ^ (64 - n) ∧
      (n < 64 → 2 ^ (63 - n) ≤ x.toNat)) ∧
    (∃ n : Nat, Gives (.ctz d a) s (scalarResult s d (.ofNat 64 n)) ∧ n ≤ 64 ∧ x.toNat % 2 ^ n = 0 ∧
      (n < 64 → x.getLsbD n = true)) ∧
    Gives (.popc d a) s (scalarResult s d (.ofNat 64 ((List.range 64).filter fun k => x.getLsbD k).length)) ∧
    (∀ sz : BitVec 2, Gives (.sext d a sz) s
      (scalarResult s d ((BitVec.ofNat (8 * 2 ^ sz.toNat) x.toNat).signExtend 64)))

/-- R75, R77 to R79: the integer instructions on registers and on extended immediates. -/
def Obligations.RegisterAndImmediateResults : Prop :=
  IntegerRegisterResults ∧ ImmediateAndUnaryResults

/-- R76: quotient and remainder, with division by zero and the overflow of signed division; the instructions are major
0x05, fn 0 to 3; the rows of the rule's run. -/
def Obligations.DivisionResults : Prop :=
  (∀ d a b : BitVec 3,
    decode [baseR 5 d.toNat a.toNat b.toNat 0] = some (.div (d.setWidth 5) (a.setWidth 5) (b.setWidth 5), 1) ∧
    decode [baseR 5 d.toNat a.toNat b.toNat 1] = some (.divn (d.setWidth 5) (a.setWidth 5) (b.setWidth 5), 1) ∧
    decode [baseR 5 d.toNat a.toNat b.toNat 2] = some (.rem (d.setWidth 5) (a.setWidth 5) (b.setWidth 5), 1) ∧
    decode [baseR 5 d.toNat a.toNat b.toNat 3] = some (.remn (d.setWidth 5) (a.setWidth 5) (b.setWidth 5), 1)) ∧
  (∀ (d a b : SReg) (s : State), s.issue.inRep = false →
    let run (i : Instr) (x y r : Word) : Prop := s.rs a = x → s.rs b = y → Gives i s (scalarResult s d r)
    run (.div d a b) (-7) 2 (-3) ∧ run (.rem d a b) (-7) 2 (-1) ∧ run (.divn d a b) 7 0 0xFFFFFFFFFFFFFFFF#64 ∧
    run (.rem d a b) (-7) 0 (-7) ∧ run (.div d a b) 0x8000000000000000#64 (-1) 0x8000000000000000#64 ∧
    run (.rem d a b) 0x8000000000000000#64 (-1) 0 ∧ run (.mulh d a b) (-1) (-1) 0 ∧
    run (.mulhn d a b) 0xFFFFFFFFFFFFFFFF#64 0xFFFFFFFFFFFFFFFF#64 0xFFFFFFFFFFFFFFFE#64) ∧
  ∀ (d a b : SReg) (s : State), s.issue.inRep = false →
    let x := s.rs a
    let y := s.rs b
    (y = 0 →
      Gives (.div d a b) s (scalarResult s d 0xFFFFFFFFFFFFFFFF#64) ∧
      Gives (.divn d a b) s (scalarResult s d 0xFFFFFFFFFFFFFFFF#64) ∧
      Gives (.rem d a b) s (scalarResult s d x) ∧
      Gives (.remn d a b) s (scalarResult s d x)) ∧
    (x = 0x8000000000000000#64 ∧ y = 0xFFFFFFFFFFFFFFFF#64 →
      Gives (.div d a b) s (scalarResult s d 0x8000000000000000#64) ∧
      Gives (.rem d a b) s (scalarResult s d 0)) ∧
    (y ≠ 0 ∧ ¬(x = 0x8000000000000000#64 ∧ y = 0xFFFFFFFFFFFFFFFF#64) →
      Gives (.div d a b) s (scalarResult s d (.ofInt 64 (Int.tdiv x.toInt y.toInt))) ∧
      Gives (.rem d a b) s (scalarResult s d (.ofInt 64 (Int.tmod x.toInt y.toInt)))) ∧
    (y ≠ 0 →
      Gives (.divn d a b) s (scalarResult s d (.ofNat 64 (x.toNat / y.toNat))) ∧
      Gives (.remn d a b) s (scalarResult s d (.ofNat 64 (x.toNat % y.toNat))))

/-- R80, R81: LDL, LDLN and STL on an address that passes the checks, the data not poisoned. A load writes S[d] alone; a
store writes its bytes alone. -/
def Sys2Proof.Claims.ScratchpadAccess : Prop :=
  ∀ (d a : SReg) (imm : Word) (sz : BitVec 2) (s : State), s.issue.inRep = false →
    let n := 2 ^ sz.toNat
    let ea := (s.rs a + imm * .ofNat 64 n).toNat
    let key := localKey s.here ea
    ea + n ≤ 0x80000 → ea % n = 0 → (s.fr.inS = true ∨ ea < 0x60000) →
      (s.poisoned key n = false →
        Gives (.ldl d a imm sz) s (scalarResult s d ((BitVec.ofNat (8 * n) (s.mem.value key n)).signExtend 64)) ∧
        Gives (.ldln d a imm sz) s (scalarResult s d (.ofNat 64 (s.mem.value key n)))) ∧
      (s.mem.wf = true → ∃ t, Gives (.stl d a imm sz) s t ∧
        (∀ k, k < n → t.mem.get (key + k) = .ofNat 8 ((s.rs d).toNat / 256 ^ k)) ∧ SameOutside s t key n ∧
        t = { onlyAdvances s with mem := t.mem, poison := t.poison } ∧
        (∀ sec ∈ t.poison, sec ∈ s.poison))

/-- R81: the checks of LDL, LDLN and STL in their order: BOUND, ALIGN, ACCESS, each a precise trap with the address in
TRAPVAL and no other effect. -/
def Sys2Proof.Claims.ScratchpadChecks : Prop :=
  ∀ (d a : SReg) (imm : Word) (sz : BitVec 2) (s : State),
    let n := 2 ^ sz.toNat
    let ea := s.rs a + imm * .ofNat 64 n
    ∀ i ∈ [Instr.ldl d a imm sz, .ldln d a imm sz, .stl d a imm sz],
      (0x80000 < ea.toNat + n → Gives i s (s.trap 4 ea)) ∧
      (ea.toNat + n ≤ 0x80000 → ea.toNat % n ≠ 0 → Gives i s (s.trap 3 ea)) ∧
      (ea.toNat + n ≤ 0x80000 → ea.toNat % n = 0 → s.fr.inS = false → 0x60000 ≤ ea.toNat → Gives i s (s.trap 6 ea))

/-- R80, R81: scratchpad loads and stores, where they complete and where they trap. -/
def Obligations.ScratchpadLoadsAndStores : Prop :=
  ScratchpadAccess ∧ ScratchpadChecks

/-- R83 to R86: a branch whose condition holds, and a jump, go to their target; the link register is written after the
target is read; nothing traps. -/
def Obligations.ControlTransfer : Prop :=
  ∀ (a b : SReg) (imm : Word) (s : State), s.issue.inRep = false →
    let x := s.rs a
    let y := s.rs b
    let target := s.fr.pc + 2 * imm
    let even := x &&& 0xFFFFFFFFFFFFFFFE#64
    let jumpIf (c : Prop) [Decidable c] : State := if c then goesTo s target else onlyAdvances s
    Gives (.beq a b imm) s (jumpIf (x = y)) ∧
    Gives (.bne a b imm) s (jumpIf (x ≠ y)) ∧
    Gives (.blt a b imm) s (jumpIf (x.toInt < y.toInt)) ∧
    Gives (.bge a b imm) s (jumpIf (y.toInt ≤ x.toInt)) ∧
    Gives (.bltn a b imm) s (jumpIf (x.toNat < y.toNat)) ∧
    Gives (.bgen a b imm) s (jumpIf (y.toNat ≤ x.toNat)) ∧
    Gives (.j imm) s (goesTo s target) ∧
    Gives (.jr a) s (goesTo s even) ∧
    (∃ ras, Gives (.jal imm) s (s.putFr { s.fr.setS 1 (pcAfter s) with pc := target, ras := ras })) ∧
    (∃ ras, Gives (.jalr a) s (s.putFr { s.fr.setS 1 (pcAfter s) with pc := even, ras := ras })) ∧
    (∃ ras, Gives (.ret a) s (s.putFr { s.fr with pc := even, ras := ras }))

/-- R88, R89: NOP changes nothing but the PC; UDF and a pattern that is no instruction raise ILLEGAL with the halfword
and its position in TRAPVAL; YIELD with no other frame READY goes on with the next group, and offers the core to one
that is. -/
def Sys2Proof.Claims.ContextControl : Prop :=
  (∀ s : State, s.issue.inRep = false → Gives .nop s (onlyAdvances s)) ∧
  (∀ (hw : Half) (pos : BitVec 3) (s : State),
    Gives (.udf hw pos) s (s.trap 1 (.ofNat 64 (hw.toNat + 65536 * pos.toNat))) ∧
    Gives (.nonInstructionPattern hw pos) s (s.trap 1 (.ofNat 64 (hw.toNat + 65536 * pos.toNat)))) ∧
  (∀ s : State, s.issue.inRep = false →
    let held := (onlyAdvances s).putCo { s.co with hold := s.co.hold && s.co.owner != some (.ofNat 2 s.cur) }
    ((∀ k, k < 4 → s.here * 4 + k ≠ s.cur → (s.frameAt (s.here * 4 + k)).status ≠ .ready) → Gives .yield s held) ∧
    ((∃ k, k < 4 ∧ s.here * 4 + k ≠ s.cur ∧ (s.frameAt (s.here * 4 + k)).status = .ready) →
      ∃ t, Gives .yield s t ∧ t.fr = { s.fr with pc := pcAfter s, status := .ready } ∧ t.co.issuing = none))

/-- R90, R91: once nothing of the chunk is outstanding, DONE and DONE.AB leave the frame EMPTY, give up the matrix bank,
free the handle and tell the distributor which chunk has ended, as complete or as abandoned. -/
def Sys2Proof.Claims.ChunkEndsAtDone : Prop :=
  ∀ (s : State) (j : Nat), s.fr.job = some j → s.fr.complete = true → s.co.tmma = none → s.co.fifo = [] →
    (∀ e ∈ s.slices, e.2.queue = [] ∧ e.2.input = [] ∧ e.2.run = none) →
    (∀ m ∈ s.msgs, ∀ c a x k w sep job, m ≠ .agentAdd c a x k (some w) sep job) → s.remotes = [] →
    ∃ t u, Gives .done s t ∧ Gives .doneAb s u ∧
      t.msgs = s.msgs ++ [.chunkEnd j s.fr.first s.fr.records false] ∧
      u.msgs = s.msgs ++ [.chunkEnd j s.fr.first s.fr.records true] ∧
      (∀ v ∈ [t, u], v.fr.status = .empty ∧ v.co.owner ≠ some (.ofNat 2 s.cur) ∧
        (v.ctxAt s.fr.handle.toNat).state = .free ∧ v.jobs = s.jobs ∧
        (∀ n, n ≠ s.cur → v.frameAt n = s.frameAt n))

/-- R88 to R92: the instructions that leave, yield or end a context. -/
def Obligations.ContextControlAndChunkEnd : Prop :=
  ContextControl ∧ ChunkEndsAtDone

/-- R92: BRK n is the halfword 0x0100 + n; it traps with cause BREAK, TRAPPC at the BRK and n in TRAPVAL, and has no other
effect than to take that trap; while a repetition is active the sequencer issues in its place. -/
def Obligations.BreakIsPreciseTrap : Prop :=
  (∀ n : BitVec 8, decode [0x0100 + n.setWidth 16] = some (.brk n, 1)) ∧
  (∀ (n : BitVec 8) (s : State), Gives (.brk n) s (s.trap 0x0B (n.setWidth 64))) ∧
  (∀ (n : BitVec 8) (s : State), s.issue.inRep = false → s.issue.len ≤ 5 → s.fr.inS = false → s.fr.hndbase.toNat % 65536 ≠ 0 →
    s.fr.capture = none → ∃ t, Gives (.brk n) s t ∧ t.fr.trappc = s.fr.pc ∧ t.fr.trapval = n.setWidth 64 ∧
      t.fr.trapc.toNat % 2 ^ 8 = 0x0B ∧ t.fr.inS = true ∧
      t = s.putFr { s.fr with trapc := t.fr.trapc, trappc := s.fr.pc, trapval := n.setWidth 64, pc := t.fr.pc }) ∧
  (∀ (n : BitVec 8) (s : State) (k len : Nat) (last : Half) (late : Bool) (run : Instr → State → Result),
    (s.frameAt k).status = .issuing → (s.frameAt k).stopping = none → (s.frameAt k).asyncReady = false →
    (s.frameAt k).repRunning = true → (s.frameAt k).replay = none →
    let t := ({ s with cur := k } : State).sampleFlags (k / 4) (some (k / 4))
    t.replaying k = false → t.fetchGroup k = .ok { instr := .brk n, len := len, last := last } →
    s.issueFrame k late run = (t.usedBank k).sequencerStep k late)
/-! ### Page 1 and number formats -/

/-- R93 to R97: each page-1 instruction that computes on floating-point values writes its result zero-extended, raises its
flags in FCSR, where a flag already set stays set (R62), and goes past the group. Operands are read in the named
precision, subnormals as zeros under FZ (R63); `add`, `mul`, `fma`, `div` and `sqrt` round once under RM (R61). -/
def Obligations.ScalarFloatResults : Prop :=
  ∀ (p : Prec) (d a b : SReg) (s : State), s.issue.inRep = false →
    let f := precFmt p
    let m : Mode := { rm := s.fr.fcsr.toNat % 8, fz := s.fr.fcsr.getLsbD 3 }
    let bits (r : SReg) : Nat := (s.rs r).toNat % 2 ^ f.width
    let num (r : SReg) : FpNum := f.decode m.fz (bits r)
    let x := num a
    let y := num b
    let quiet := Flags.when (x.isSNaN || y.isSNaN) flagNV
    let loud := Flags.when (x.isNaN || y.isNaN) flagNV
    Gives (.fadd p d a b) s (floatResult s d (f.add m x y)) ∧
    Gives (.fsub p d a b) s (floatResult s d (f.add m x y.negate)) ∧
    Gives (.fmul p d a b) s (floatResult s d (f.mul m x y)) ∧
    Gives (.fdiv p d a b) s (floatResult s d (f.div m x y)) ∧
    Gives (.fsqrt p d a) s (floatResult s d (f.sqrt m x)) ∧
    Gives (.fma p d a b) s (floatResult s d (f.fma m x y (num d))) ∧
    Gives (.fms p d a b) s (floatResult s d (f.fma m x y (num d).negate)) ∧
    Gives (.fnma p d a b) s (floatResult s d (f.fma m x.negate y (num d))) ∧
    Gives (.fmin p d a b) s (floatResult s d (f.minMax m false (bits a) (bits b))) ∧
    Gives (.fmax p d a b) s (floatResult s d (f.minMax m true (bits a) (bits b))) ∧
    Gives (.feq p d a b) s (floatResult s d ((x.eq y).toNat, quiet)) ∧
    Gives (.flt p d a b) s (floatResult s d ((x.lt y).toNat, loud)) ∧
    Gives (.fle p d a b) s (floatResult s d ((x.lt y || x.eq y).toNat, loud)) ∧
    Gives (.fun p d a b) s (floatResult s d ((x.isNaN || y.isNaN).toNat, quiet))

/-- R56, R97: FSGNJ, FABS and FNEG change the sign bit alone and raise nothing; FCLASS sets exactly one bit, the one of
the operand's class as encoded. -/
def Sys2Proof.Claims.ScalarFloatBitResults : Prop :=
  ∀ (p : Prec) (d a b : SReg) (s : State), s.issue.inRep = false →
    let f := precFmt p
    let bits (r : SReg) : Nat := (s.rs r).toNat % 2 ^ f.width
    let low (r : SReg) : Nat := bits r % 2 ^ (f.width - 1)
    let sign (r : SReg) : Nat := bits r / 2 ^ (f.width - 1) * 2 ^ (f.width - 1)
    Gives (.fsgnj p d a b) s (floatResult s d (low a + sign b, 0)) ∧
    Gives (.fabs p d a) s (floatResult s d (low a, 0)) ∧
    Gives (.fneg p d a) s (floatResult s d (low a + (2 ^ (f.width - 1) - sign a), 0)) ∧
    (∃ k, k < 10 ∧ Gives (.fclass p d a) s (floatResult s d (2 ^ k, 0)) ∧
      (match f.decode false (bits a) with
       | .nan signalling => k = if signalling then 8 else 9
       | .inf neg => k = if neg then 0 else 7
       | .fin neg mant _ => k =
          if mant = 0 then (if neg then 3 else 4)
          else if mant < 2 ^ f.fbits then (if neg then 2 else 5) else (if neg then 1 else 6)))

/-- R66, R98: the scalar conversions, with the form of their sources and results. -/
def Sys2Proof.Claims.ScalarConversions : Prop :=
  ∀ (f : Fmt) (p : Prec) (d a : SReg) (s : State), s.issue.inRep = false →
    let m : Mode := { rm := s.fr.fcsr.toNat % 8, fz := s.fr.fcsr.getLsbD 3 }
    let src (w : Nat) : Nat := (s.rs a).toNat % 2 ^ w
    let of : Prec → Fmt := fun q => match q with | .f32 => .f32 | .f64 => .f64
    let other : Prec := match p with | .f32 => .f64 | .f64 => .f32
    Gives (.fcvtFI f p d a) s (floatResult s d (convert f (of p) m (src (fmtWidth f)))) ∧
    Gives (.fcvtFF p d a) s (floatResult s d (convert (of other) (of p) m (src (fmtWidth (of other))))) ∧
    Gives (.fcvtT f p d a true) s (floatResult s d (convert f (of p) m (src (fmtWidth f)))) ∧
    Gives (.fcvtT f p d a false) s (floatResult s d (convert (of p) f m (src (fmtWidth (of p))))) ∧
    (let r := convert (of p) f m (src (fmtWidth (of p)))
     Gives (.fcvtIF f p d a) s (floatResult s d ((BitVec.ofInt 64 (intValue f r.1)).toNat, r.2)))

/-- R56, R66, R97, R98: sign operations, classes and conversions of scalar floating-point values. -/
def Obligations.ScalarBitsAndConversions : Prop :=
  ScalarFloatBitResults ∧ ScalarConversions

/-- R61, R62: rounding a value that the format holds gives its own encoding back, in every rounding mode and without a
flag; so every operation whose exact result is representable is exact. -/
def Sys2Proof.Claims.RoundingKeepsRepresentableValues : Prop :=
  ∀ f ∈ [fBf16, fF16, fF32, fF64], ∀ (rm bits : Nat), bits < 2 ^ f.width →
    (f.decode false bits).isNaN = false → f.round { rm := rm, fz := false } (f.decode false bits) = (bits, 0)

/-- R66: an IEEE value converted to an integer format is first rounded to an integer; within the range it is that
integer, otherwise the nearer end of the range with NV and without NX. An integer is saturated to another integer format and
rounded to an IEEE one; an IEEE value is rounded to another IEEE format. -/
def Sys2Proof.Claims.FloatToIntegerJudgesAfterRounding : Prop :=
  (∀ (f : Fmt) (m : Mode) (neg : Bool) (mant : Nat) (exp : Int), (fmtFloat f).isNone = true → (fmtTaper f).isNone = true →
    let n := roundAt m.rm neg mant exp false 0
    let v : Int := if neg then -(n.1 : Int) else n.1
    let lo := (intRange f).1
    let hi := (intRange f).2
    let r := numToInt f m (.fin neg mant exp)
    (lo ≤ v ∧ v ≤ hi → intValue f r.1 = v ∧ r.2 = if n.2 then flagNX else 0) ∧
    (v < lo → intValue f r.1 = lo ∧ r.2 = flagNV) ∧
    (hi < v → intValue f r.1 = hi ∧ r.2 = flagNV)) ∧
  ∀ (f g : Fmt) (m : Mode) (x : Nat), x < 2 ^ fmtWidth f → fmtTaper f = none → fmtTaper g = none →
    (∀ e, fmtFloat g = some e → fmtFloat f = none → convert f g m x = e.round m (numOfInt (intValue f x))) ∧
    (∀ d e, fmtFloat f = some d → fmtFloat g = some e → convert f g m x = e.round m (d.decode m.fz x)) ∧
    (∀ d, fmtFloat f = some d → fmtFloat g = none → convert f g m x = numToInt g m (d.decode m.fz x) ∧
      (∀ sg, d.decode m.fz x = .nan sg → convert f g m x = (0, flagNV)) ∧
      (∀ neg, d.decode m.fz x = .inf neg → (convert f g m x).2 = flagNV ∧
        intValue g (convert f g m x).1 = if neg then (intRange g).1 else (intRange g).2)) ∧
    (fmtFloat f = none → fmtFloat g = none → (convert f g m x).2 = 0 ∧
      intValue g (convert f g m x).1 = max (intRange g).1 (min (intRange g).2 (intValue f x)))

/-- R56, R61 to R63, R94, R95: rounding an exact value gives the neighbour that RM asks for, with NX, OF, UF and FZ's flush;
sums, products and fused forms are that rounding of the exact result, an exact sum of zero has R61's sign, and quotients and
square roots are rounded once as their exact values lie among the codes; NaNs, infinities and zeros as IEEE 754 has them. -/
def Sys2Proof.Claims.OperationsRoundExactResult : Prop :=
  ∀ f ∈ [fBf16, fF16, fF32, fF64], ∀ m : Mode, m.rm ≤ 4 →
    let sum (na : Bool) (ma : Nat) (ea : Int) (nb : Bool) (mb : Nat) (eb : Int) (r : Nat × Flags) : Prop :=
      let e := min ea eb
      let v := finAt na ma ea e + finAt nb mb eb e
      (v ≠ 0 → r = f.round m (.fin (decide (v < 0)) v.natAbs e)) ∧
      (v = 0 → r = (f.zero (if ma = 0 ∧ mb = 0 ∧ na = nb then na else decide (m.rm = 3)), 0))
    (∀ (neg : Bool) (mant : Nat) (exp : Int),
      (mant = 0 → f.round m (.fin neg mant exp) = (f.zero neg, 0)) ∧
      (mant ≠ 0 → RoundsTo f m neg (fun k q => magLt mant exp k q) (fun k q => magLt k q mant exp) (f.round m (.fin neg mant exp)))) ∧
    (∀ x y : FpNum, x.isNaN = true ∨ y.isNaN = true →
      let r := (f.nanBits, if x.isSNaN || y.isSNaN then flagNV else 0)
      f.add m x y = r ∧ f.mul m x y = r ∧ f.div m x y = r) ∧
    (∀ (na nb : Bool) (ma mb : Nat) (ea eb : Int),
      let x : FpNum := .fin na ma ea
      let y : FpNum := .fin nb mb eb
      let i : FpNum := .inf na
      sum na ma ea nb mb eb (f.add m x y) ∧ f.mul m x y = f.round m (.fin (na != nb) (ma * mb) (ea + eb)) ∧
      f.add m i y = (f.inf na, 0) ∧ f.add m y i = (f.inf na, 0) ∧
      f.add m i (.inf nb) = (if na = nb then (f.inf na, 0) else (f.nanBits, flagNV)) ∧
      f.mul m i (.inf nb) = (f.inf (na != nb), 0) ∧
      f.mul m i y = (if mb = 0 then (f.nanBits, flagNV) else (f.inf (na != nb), 0)) ∧
      f.mul m y i = (if mb = 0 then (f.nanBits, flagNV) else (f.inf (na != nb), 0)) ∧
      f.div m i (.inf nb) = (f.nanBits, flagNV) ∧ f.div m i y = (f.inf (na != nb), 0) ∧
      f.div m y i = (f.zero (na != nb), 0) ∧
      (ma = 0 → mb = 0 → f.div m x y = (f.nanBits, flagNV)) ∧
      (ma ≠ 0 → mb = 0 → f.div m x y = (f.inf (na != nb), flagDZ)) ∧
      (ma = 0 → mb ≠ 0 → f.div m x y = (f.zero (na != nb), 0)) ∧
      (ma ≠ 0 → mb ≠ 0 → ma < 2 ^ 53 → mb < 2 ^ 53 →
        RoundsTo f m (na != nb) (fun k q => magLt ma ea (k * mb) (q + eb)) (fun k q => magLt (k * mb) (q + eb) ma ea)
          (f.div m x y)) ∧
      f.sqrt m i = (if na then (f.nanBits, flagNV) else (f.inf false, 0)) ∧
      (ma = 0 → f.sqrt m x = (f.zero na, 0)) ∧ (ma ≠ 0 → na = true → f.sqrt m x = (f.nanBits, flagNV)) ∧
      (ma ≠ 0 → na = false → RoundsTo f m false (fun k q => magLt ma ea (k * k) (2 * q))
        (fun k q => magLt (k * k) (2 * q) ma ea) (f.sqrt m x)) ∧
      (∀ (nc : Bool) (mc : Nat) (ec : Int), sum (na != nb) (ma * mb) (ea + eb) nc mc ec (f.fma m x y (.fin nc mc ec))) ∧
      (∀ nc : Bool, f.fma m x y (.inf nc) = (f.inf nc, 0)) ∧
      (mb ≠ 0 → ∀ (nc : Bool) (mc : Nat) (ec : Int), f.fma m i y (.fin nc mc ec) = (f.inf (na != nb), 0) ∧
        f.fma m i y (.inf nc) = (if nc = (na != nb) then (f.inf nc, 0) else (f.nanBits, flagNV))) ∧
      (mb = 0 → ∀ z, f.fma m i y z = (f.nanBits, flagNV) ∧ f.fma m y i z = (f.nanBits, flagNV))) ∧
    (∀ x y z : FpNum, x.isNaN = true ∨ y.isNaN = true ∨ (z.isNaN = true ∧ x.mul y ≠ none) →
      f.fma m x y z = (f.nanBits, if x.isSNaN || y.isSNaN || z.isSNaN then flagNV else 0)) ∧
    ∀ sg, f.sqrt m (.nan sg) = (f.nanBits, if sg then flagNV else 0)

/-- R64, R71: the smaller and the larger operand, the zero that a subnormal is read as under FZ; the special operands of VEXP2,
VLOG2, VRCP and VRSQ; reciprocals and their roots rounded once; 2^x of an integer and log2 of a power of two exact, and of other
values inexact and between the powers and the integers that enclose them. How far within is left to their tests. -/
def Sys2Proof.Claims.MinimaAndSpecialFunctions : Prop :=
  (∀ f ∈ [fBf16, fF16, fF32, fF64], ∀ (m : Mode) (a b : Nat), a < 2 ^ f.width → b < 2 ^ f.width →
    let x := f.decode m.fz a
    let y := f.decode m.fz b
    let read (z : Nat) : Nat := if m.fz = true ∧ z / 2 ^ f.fbits % 2 ^ f.ebits = 0
      then z / 2 ^ (f.width - 1) * 2 ^ (f.width - 1) else z
    let fl := if x.isSNaN || y.isSNaN then flagNV else 0
    let order (neg pos : FpNum) : Prop := neg.isNaN = false ∧ pos.isNaN = false ∧
      (neg.lt pos = true ∨ (neg.isZero = true ∧ pos.isZero = true ∧ neg.isNeg = true ∧ pos.isNeg = false))
    (x.isNaN = true → y.isNaN = true → ∀ w, f.minMax m w a b = (f.nanBits, fl)) ∧
    (x.isNaN = true → y.isNaN = false → ∀ w, f.minMax m w a b = (read b, fl)) ∧
    (x.isNaN = false → y.isNaN = true → ∀ w, f.minMax m w a b = (read a, fl)) ∧
    (order x y → f.minMax m false a b = (read a, 0) ∧ f.minMax m true a b = (read b, 0)) ∧
    (order y x → f.minMax m false a b = (read b, 0) ∧ f.minMax m true a b = (read a, 0)) ∧
    (x.isNaN = false → y.isNaN = false → ¬order x y → ¬order y x →
      ∀ w, f.minMax m w a b = (read a, 0) ∧ read a = read b)) ∧
  ∀ f ∈ [fBf16, fF16, fF32], ∀ m : Mode, m.rm ≤ 4 →
    let one := f.bias * 2 ^ f.fbits
    (∀ sg, ∀ g ∈ [f.exp2 m, f.log2 m, f.rcp m, f.rsq m], g (.nan sg) = (f.nanBits, if sg then flagNV else 0)) ∧
    f.exp2 m (.inf true) = (f.zero false, 0) ∧ f.exp2 m (.inf false) = (f.inf false, 0) ∧
    f.log2 m (.inf true) = (f.nanBits, flagNV) ∧ f.log2 m (.inf false) = (f.inf false, 0) ∧
    (∀ n, f.rcp m (.inf n) = (f.zero n, 0)) ∧
    f.rsq m (.inf true) = (f.nanBits, flagNV) ∧ f.rsq m (.inf false) = (f.zero false, 0) ∧
    (∀ (n : Bool) (e : Int), f.exp2 m (.fin n 0 e) = (one, 0) ∧ f.log2 m (.fin n 0 e) = (f.inf true, flagDZ) ∧
      f.rcp m (.fin n 0 e) = (f.inf n, flagDZ) ∧ f.rsq m (.fin n 0 e) = (f.inf n, flagDZ)) ∧
    (∀ (n : Bool) (mant : Nat) (e : Int), mant ≠ 0 → mant < 2 ^ (f.fbits + 1) →
      RoundsTo f m n (fun k q => magLt 1 0 (k * mant) (q + e)) (fun k q => magLt (k * mant) (q + e) 1 0)
        (f.rcp m (.fin n mant e)) ∧
      f.log2 m (.fin true mant e) = (f.nanBits, flagNV) ∧ f.rsq m (.fin true mant e) = (f.nanBits, flagNV) ∧
      RoundsTo f m false (fun k q => magLt 1 0 (k * k * mant) (2 * q + e))
        (fun k q => magLt (k * k * mant) (2 * q + e) 1 0) (f.rsq m (.fin false mant e)) ∧
      (∀ k : Nat, mant = 2 ^ k → f.log2 m (.fin false mant e) = f.round m (.fin (decide (k + e < 0)) (k + e).natAbs 0)) ∧
      (∀ k : Nat, 2 ^ k < mant → mant < 2 ^ (k + 1) → k + e ≠ 0 → k + e ≠ -1 → -2 ^ f.ebits ≤ k + e → k + e < 2 ^ f.ebits →
        let r := f.log2 m (.fin false mant e)
        let y := f.decode false r.1
        r.2 = flagNX ∧ y.lt (.fin (decide (k + e < 0)) (k + e).natAbs 0) = false ∧
          FpNum.lt (.fin (decide (k + e + 1 < 0)) (k + e + 1).natAbs 0) y = false) ∧
      (∀ i : Int, f.emin ≤ i → i ≤ f.bias → finAt n mant e (min e 0) = i * 2 ^ (-(min e 0)).toNat →
        f.exp2 m (.fin n mant e) = ((i + f.bias).toNat * 2 ^ f.fbits, 0)) ∧
      (∀ i : Int, f.emin ≤ i → i < f.bias → e < 0 → i * 2 ^ (-e).toNat < finAt n mant e e →
        finAt n mant e e < (i + 1) * 2 ^ (-e).toNat →
        let r := f.exp2 m (.fin n mant e)
        r.2 = flagNX ∧ (i + f.bias).toNat * 2 ^ f.fbits ≤ r.1 ∧ r.1 ≤ (i + 1 + f.bias).toNat * 2 ^ f.fbits))

/-- R56, R61 to R66, R71: rounding, the operations that round, special functions, conversion limits. -/
def Obligations.RoundingAndIntegerLimits : Prop :=
  RoundingKeepsRepresentableValues ∧ FloatToIntegerJudgesAfterRounding ∧ OperationsRoundExactResult ∧ MinimaAndSpecialFunctions

/-! ### Page 2 -/

/-- R99: what writing results to the elements of V[d] leaves: an active element holds its result, an inactive one what
it held; FCSR gains the flags of the active ones; no other register of the frame, nothing of another frame and no byte
of memory changes, and the group is past; of t6 the bytes 192 to 255 are then zero (R57). -/
def Obligations.ElementsWrittenUnderPredicate : Prop :=
  ∀ (f : Fmt) (d : VReg) (pr : PReg) (xs : List (Nat × Flags)) (s : State), xs.length = fmtCount f →
    (∀ x ∈ xs, x.1 < 2 ^ fmtWidth f) →
    let t := s.writeElems f d pr xs
    let on := active f (s.fr.getP pr)
    (∀ e, e < fmtCount f →
      elem f (t.fr.getV d) e = if on e then (xs.getD e (0, 0)).1 else elem f (s.fr.getV d) e) ∧
    (f = .t6 → TailZero (t.fr.getV d)) ∧
    (∀ r, r ≠ d → t.fr.getV r = s.fr.getV r) ∧
    (∀ k : Nat, t.fr.fcsr.getLsbD k =
      (s.fr.fcsr.getLsbD k || (decide (8 ≤ k) && (List.range (fmtCount f)).any fun e =>
        on e && (xs.getD e (0, 0)).2.getLsbD (k - 8)))) ∧
    t.fr = past s { s.fr with v := t.fr.v, fcsr := t.fr.fcsr, poisonV := t.fr.poisonV } ∧
    t = { s with frames := t.frames } ∧ (∀ n, n ≠ s.cur → t.frameAt n = s.frameAt n)

/-- R65, R101: the element instructions on integer formats, in a class that may use the vector unit (R135).
The model's choice, no rule of the spec, where it rests on log entry 22. -/
def Obligations.VectorIntegerResults : Prop :=
  ∀ (f : Fmt) (d a b : VReg) (pr : PReg) (s : State), s.fr.cls ≠ 0 → fmtFloat f = none → fmtTaper f = none →
    let w := fmtWidth f
    let xs := elems f (s.fr.getV a)
    let ys := elems f (s.fr.getV b)
    let two (op : Nat → Nat → Nat) : State := s.writeElems f d pr (List.zipWith (fun x y => (op x y, 0)) xs ys)
    let ints (op : Int → Int → Int) : State := two fun x y => intBits w (op (intValue f x) (intValue f y))
    let one (op : Nat → Nat) : State := s.writeElems f d pr (xs.map fun x => (op x, 0))
    Gives (.vadd false f d a b pr) s (ints (· + ·)) ∧
    Gives (.vadd true f d a b pr) s (ints fun x y => satInt f (x + y)) ∧
    Gives (.vsub false f d a b pr) s (ints (· - ·)) ∧
    Gives (.vsub true f d a b pr) s (ints fun x y => satInt f (x - y)) ∧
    Gives (.vmul f d a b pr) s (ints (· * ·)) ∧
    Gives (.vmulh f d a b pr) s (ints fun x y => x * y / 2 ^ w) ∧
    Gives (.vmin f d a b pr) s (two fun x y => (if intValue f x < intValue f y then x else y) % 2 ^ w) ∧
    Gives (.vmax f d a b pr) s (two fun x y => (if intValue f x < intValue f y then y else x) % 2 ^ w) ∧
    Gives (.vabs f d a pr) s (one fun x => intBits w (intValue f x).natAbs) ∧
    Gives (.vneg f d a pr) s (one fun x => intBits w (-(intValue f x))) ∧
    Gives (.vshl f d a b pr) s (two fun x y => x * 2 ^ (y % w) % 2 ^ w) ∧
    Gives (.vshr f d a b pr) s (two fun x y => x / 2 ^ (y % w) % 2 ^ w) ∧
    Gives (.vsar f d a b pr) s (two fun x y => intBits w (intValue f x / 2 ^ (y % w)) % 2 ^ w) ∧
    Gives (.vror f d a b pr) s (two fun x y => (x / 2 ^ (y % w) + x * 2 ^ (w - y % w)) % 2 ^ w)

/-- R101, R102, R106, R108: the element instructions on IEEE formats, rounded once under RM. -/
def Obligations.VectorFloatResults : Prop :=
  ∀ (f : Fmt) (ff : FloatFmt) (d a b : VReg) (pr : PReg) (imm : Word) (s : State), s.fr.cls ≠ 0 →
    fmtFloat f = some ff →
    let m : Mode := { rm := s.fr.fcsr.toNat % 8, fz := s.fr.fcsr.getLsbD 3 }
    let num := ff.decode m.fz
    let xs := elems f (s.fr.getV a)
    let ys := elems f (s.fr.getV b)
    let zs := elems f (s.fr.getV d)
    let put (rs : List (Nat × Flags)) : State := s.writeElems f d pr rs
    let two (op : Nat → Nat → Nat × Flags) : State := put (List.zipWith op xs ys)
    let fused (op : FpNum → FpNum → FpNum → Nat × Flags) : State :=
      put (List.zipWith (fun g z => g z) (List.zipWith (fun x y z => op (num x) (num y) (num z)) xs ys) zs)
    Gives (.vadd false f d a b pr) s (two fun x y => ff.add m (num x) (num y)) ∧
    Gives (.vsub false f d a b pr) s (two fun x y => ff.add m (num x) (num y).negate) ∧
    Gives (.vmul f d a b pr) s (two fun x y => ff.mul m (num x) (num y)) ∧
    Gives (.vmin f d a b pr) s (two (ff.minMax m false)) ∧
    Gives (.vmax f d a b pr) s (two (ff.minMax m true)) ∧
    Gives (.vfma f d a b pr) s (fused fun x y z => ff.fma m x y z) ∧
    Gives (.vfms f d a b pr) s (fused fun x y z => ff.fma m x y z.negate) ∧
    Gives (.vfnma f d a b pr) s (fused fun x y z => ff.fma m x.negate y z) ∧
    Gives (.vabs f d a pr) s (put (xs.map fun x => (x % 2 ^ (ff.width - 1), 0))) ∧
    Gives (.vneg f d a pr) s (put (xs.map fun x => (x % 2 ^ (ff.width - 1) +
      (if x / 2 ^ (ff.width - 1) % 2 = 1 then 0 else 2 ^ (ff.width - 1)), 0))) ∧
    Gives (.vexp2 f d a pr) s (put (xs.map fun x => ff.exp2 m (num x))) ∧
    Gives (.vlog2 f d a pr) s (put (xs.map fun x => ff.log2 m (num x))) ∧
    Gives (.vrcp f d a pr) s (put (xs.map fun x => ff.rcp m (num x))) ∧
    Gives (.vrsq f d a pr) s (put (xs.map fun x => ff.rsq m (num x))) ∧
    Gives (.vscale f d a pr imm) s (put (xs.map fun x => ff.round m (scaleNum imm.toInt (num x))))

/-- R101, R104, R107, R108: bitwise operations, selection, permutation, broadcast, extraction, constants and
conversion, on every format.
The model's choice, no rule of the spec, where it rests on log entry 23. -/
def Obligations.VectorMovementResults : Prop :=
  ∀ (f tgt : Fmt) (d a b : VReg) (sd sa : SReg) (pr : PReg) (imm : Word) (s : State), s.fr.cls ≠ 0 →
    let w := fmtWidth f
    let n := fmtCount f
    let m : Mode := { rm := s.fr.fcsr.toNat % 8, fz := s.fr.fcsr.getLsbD 3 }
    let xs := elems f (s.fr.getV a)
    let ys := elems f (s.fr.getV b)
    let bits (op : Nat → Nat → Nat) : State := s.writeElems f d pr (List.zipWith (fun x y => (op x y % 2 ^ w, 0)) xs ys)
    Gives (.vand f d a b pr) s (bits (· &&& ·)) ∧
    Gives (.vor f d a b pr) s (bits (· ||| ·)) ∧
    Gives (.vxor f d a b pr) s (bits (· ^^^ ·)) ∧
    Gives (.vandn f d a b pr) s (bits fun x y => x &&& (y ^^^ (2 ^ w - 1))) ∧
    Gives (.vperm f d a b pr) s (s.writeElems f d pr (ys.map fun i => (elem f (s.fr.getV a) (i % n), 0))) ∧
    Gives (.vbcst f d sa pr) s (s.writeElems f d pr (List.replicate n ((s.srcA sa).toNat % 2 ^ w, 0))) ∧
    Gives (.vli f d pr imm) s (s.writeElems f d pr (List.replicate n (immElem f m imm))) ∧
    (∃ t, Gives (.vsel f d a b pr) s t ∧
      (∀ e, e < n → elem f (t.fr.getV d) e =
        if active f (s.fr.getP pr) e then elem f (s.fr.getV a) e else elem f (s.fr.getV b) e) ∧
      (f = .t6 → TailZero (t.fr.getV d)) ∧
      t = s.putFr (past s (s.fr.setVAll d (t.fr.getV d)))) ∧
    (∃ t, Gives (.vcvt f d a pr tgt) s t ∧
      (∀ e, e < fmtCount tgt → elem tgt (t.fr.getV d) e =
        if e < min n (fmtCount tgt) ∧ active f (s.fr.getP pr) e then (convert f tgt m (elem f (s.fr.getV a) e)).1
        else elem tgt (s.fr.getV d) e) ∧
      (tgt = .t6 → TailZero (t.fr.getV d)) ∧
      Raised s t (min n (fmtCount tgt)) 1 (fun e _ =>
        if active f (s.fr.getP pr) e then (convert f tgt m (elem f (s.fr.getV a) e)).2 else 0) ∧
      t = s.putFr (past s { s.fr.setV d (t.fr.getV d) with fcsr := t.fr.fcsr })) ∧
    (let x := elem f (s.fr.getV a) ((s.srcB sa).toNat % n)
     let y : Word := if fmtSigned f then (BitVec.ofNat w x).signExtend 64 else .ofNat 64 (x % 2 ^ w)
     Gives (.vext f sd a sa) s (s.putFr (past s (s.fr.setS sd y))))

/-- R103: a comparison writes all 64 bits of P[d]: a bit is 1 when the relation holds for every element it reports and
they are active. NaNs compare as R96 says; EQ and UN raise NV for an active signalling NaN, LT and LE for any active NaN, and nothing
else is raised. -/
def Obligations.VectorComparisonResults : Prop :=
  ∀ (f : Fmt) (d : PReg) (a b : VReg) (pr : PReg) (s : State), s.fr.cls ≠ 0 → fmtTaper f = none →
    let fz := s.fr.fcsr.getLsbD 3
    let holds (rel : FpNum → FpNum → Bool) (int : Int → Int → Bool) (e : Nat) : Bool :=
      let x := elem f (s.fr.getV a) e
      let y := elem f (s.fr.getV b) e
      match fmtFloat f with
      | some ff => rel (ff.decode fz x) (ff.decode fz y)
      | none => int (intValue f x) (intValue f y)
    let reports (n e : Nat) : Prop := if fmtCount f = 32 then e = n / 2 else e * 64 / fmtCount f = n
    let bitsAre (p : Word) (h : Nat → Bool) : Prop := ∀ n, n < 64 →
      (p.getLsbD n = true ↔ ∀ e, e < fmtCount f → reports n e → active f (s.fr.getP pr) e = true ∧ h e = true)
    let some_ (bad : FpNum → Bool) : Prop := ∃ ff e, fmtFloat f = some ff ∧ e < fmtCount f ∧ active f (s.fr.getP pr) e = true ∧
      (bad (ff.decode fz (elem f (s.fr.getV a) e)) = true ∨ bad (ff.decode fz (elem f (s.fr.getV b) e)) = true)
    ∀ x ∈ [(Instr.vcmpEq f d a b pr, (holds FpNum.eq fun x y => decide (x = y)), FpNum.isSNaN),
           (Instr.vcmpLt f d a b pr, (holds FpNum.lt fun x y => decide (x < y)), FpNum.isNaN),
           (Instr.vcmpLe f d a b pr, (holds (fun x y => x.lt y || x.eq y) fun x y => decide (x ≤ y)), FpNum.isNaN),
           (Instr.vcmpUn f d a b pr, (holds (fun x y => x.isNaN || y.isNaN) fun _ _ => false), FpNum.isSNaN)],
      ∃ (t : State) (p : Word), Gives x.1 s t ∧ bitsAre p x.2.1 ∧
        (some_ x.2.2 → t.fr.fcsr = s.fr.fcsr ||| 0x100#64) ∧ (¬some_ x.2.2 → t.fr.fcsr = s.fr.fcsr) ∧
        t = s.putFr (past s { s.fr.setP d p with fcsr := t.fr.fcsr })

/-- R62, R70, R105: a reduction of IEEE elements is the fixed binary tree over their positions, run in f32 for bf16 and f16,
with the result that R70 gives for no active element; FCSR gains the flags of every active leaf and of every combination. -/
def Sys2Proof.Claims.VectorFloatReductions : Prop :=
  ∀ (f : Fmt) (ff : FloatFmt) (d : SReg) (a : VReg) (pr : PReg) (s : State), s.fr.cls ≠ 0 → fmtFloat f = some ff →
    let m : Mode := { rm := s.fr.fcsr.toNat % 8, fz := s.fr.fcsr.getLsbD 3 }
    let gf := if ff = fF64 then fF64 else fF32
    let read (e : Nat) : Nat × Flags := if ff = fF32 ∨ ff = fF64 then (ff.asRead m.fz (elem f (s.fr.getV a) e), 0)
      else convert f .f32 m (elem f (s.fr.getV a) e)
    let num := gf.decode m.fz
    let square (e : Nat) : Nat × Flags :=
      let r := gf.mul m (num (read e).1) (num (read e).1)
      (r.1, (read e).2 ||| r.2)
    let both (op : Nat → Nat → Nat × Flags) (x y : Nat × Flags) : Nat × Flags :=
      let r := op x.1 y.1
      (r.1, x.2 ||| y.2 ||| r.2)
    let sum := both fun x y => gf.add m (num x) (num y)
    let tree (combine : Nat × Flags → Nat × Flags → Nat × Flags) (leaf : Nat → Nat × Flags) : Option (Nat × Flags) :=
      treeNode combine (fun e => if e < fmtCount f ∧ active f (s.fr.getP pr) e then some (leaf e) else none) 8 0
    ∀ x ∈ [(Instr.vredSum f d a pr, (tree sum read).getD (0, 0)),
           (Instr.vredSsq f d a pr, (tree sum square).getD (0, 0)),
           (Instr.vredMax f d a pr, (tree (both (gf.minMax m true)) read).getD (gf.inf true, 0)),
           (Instr.vredMin f d a pr, (tree (both (gf.minMax m false)) read).getD (gf.inf false, 0))],
      Gives x.1 s (s.putFr (past s { s.fr.setS d (.ofNat 64 x.2.1) with
        fcsr := s.fr.fcsr ||| (x.2.2.setWidth 64 <<< 8) }))

/-- R70, R105: integer reductions: SUM is the sum of the active elements modulo 2^w, whatever the order; MAX and MIN
the greatest and the least of them, or the end of the range that R70 names when none is active. -/
def Sys2Proof.Claims.VectorIntegerReductions : Prop :=
  ∀ (f : Fmt) (d : SReg) (a : VReg) (pr : PReg) (s : State), s.fr.cls ≠ 0 → fmtFloat f = none → fmtTaper f = none →
    let on := (List.range (fmtCount f)).filter (active f (s.fr.getP pr))
    let vals := on.map fun e => intValue f (elem f (s.fr.getV a) e)
    let put (v : Int) : State := s.putFr (past s (s.fr.setS d (.ofInt 64 (intValue f (intBits (fmtWidth f) v)))))
    Gives (.vredSum f d a pr) s (put vals.sum) ∧
    Gives (.vredMax f d a pr) s (put (vals.foldl max (intRange f).1)) ∧
    Gives (.vredMin f d a pr) s (put (vals.foldl min (intRange f).2))

/-- R70, R105: reductions of floating-point and of integer elements.
The model's choice, no rule of the spec, where it rests on log entry 24. -/
def Obligations.VectorReductions : Prop :=
  VectorFloatReductions ∧ VectorIntegerReductions

/-- R112: the predicate instructions, majors 0x0E and 0x0F of page 2, act on whole predicates; each changes its
destination alone, so that none raises a flag, and none traps in a class that may use page 2 (R135). -/
def Obligations.PredicateResults : Prop :=
  (∀ d a b : BitVec 3,
    (∀ x ∈ [(0, Instr.pand d a b), (1, .por d a b),
        (2, .pxor d a b)],
      decode [0xFA40#16, baseR 0x0E d.toNat a.toNat b.toNat x.1] = some (x.2, 2)) ∧
    (∀ x ∈ [(0x0E, 3, Instr.pnot d a), (0x0F, 0, .pcnt (d.setWidth 5) a),
        (0x0F, 1, .pffs (d.setWidth 5) a), (0x0F, 2, .pset d (a.setWidth 5))],
      decode [0xFA40#16, baseR x.1 d.toNat a.toNat 0 x.2.1] = some (x.2.2, 2))) ∧
  ∀ (d a b : PReg) (sd : SReg) (s : State), s.fr.cls ≠ 0 →
    let x := s.fr.getP a
    let y := s.fr.getP b
    let put (w : Word) : State := s.putFr (past s (s.fr.setP d w))
    let count (w : Word) : State := s.putFr (past s (s.fr.setS sd w))
    Gives (.pand d a b) s (put (x &&& y)) ∧
    Gives (.por d a b) s (put (x ||| y)) ∧
    Gives (.pxor d a b) s (put (x ^^^ y)) ∧
    Gives (.pnot d a) s (put (~~~x)) ∧
    Gives (.pset d sd) s (put (s.srcA sd)) ∧
    Gives (.pcnt sd a) s (count (.ofNat 64 ((List.range 64).filter fun k => x.getLsbD k).length)) ∧
    (∃ n, Gives (.pffs sd a) s (count (.ofNat 64 n)) ∧
      (x = 0 → n = 64) ∧ (x ≠ 0 → x.getLsbD n = true ∧ ∀ k, k < n → x.getLsbD k = false))

/-- R109, R110: a vector load whose active elements all pass their checks, none of them poisoned, gives each the bits at
its address, leaves the inactive ones, and changes no memory. -/
def Obligations.VectorLoads : Prop :=
  ∀ (f : Fmt) (d b : VReg) (a sb : SReg) (pr : PReg) (s : State), s.fr.cls ≠ 0 →
    let on (e : Nat) : Prop := e < fmtCount f ∧ active f (s.fr.getP pr) e = true
    let base := s.srcA a
    let forms : List (Instr × (Nat → Word) × (Nat → Nat)) :=
      [(.vldlUnit f d a pr, fun e => base + .ofNat 64 (if f = .t6 then 3 * (e / 4) else e * (fmtWidth f / 8)), (· % 4)),
       (.vldlStr f d a sb pr, fun e => base + .ofNat 64 e * s.srcB sb, (· % 4)),
       (.vldlGat f d a b pr, fun e => base + .ofNat 64 (elem .n32 (s.fr.getV b) (e * 64 / fmtCount f)), (· % 4)),
       (.vldlBc f d a pr, fun _ => base, fun _ => 0)]
    ∀ x ∈ forms,
      (∀ e, on e → s.fr.localFault (x.2.1 e).toNat (memBytes f) (memAlign f) = none ∧
        s.poisoned (localKey s.here (x.2.1 e).toNat) (memBytes f) = false) →
      ∃ t, Gives x.1 s t ∧
        (∀ e, e < fmtCount f → elem f (t.fr.getV d) e =
          if active f (s.fr.getP pr) e then
            (let v := s.mem.value (localKey s.here (x.2.1 e).toNat) (memBytes f)
             if f = .t6 then v / 64 ^ x.2.2 e % 64 else v)
          else elem f (s.fr.getV d) e) ∧
        (f = .t6 → TailZero (t.fr.getV d)) ∧
        t = s.putFr (past s { s.fr with v := t.fr.v, poisonV := t.fr.poisonV }) ∧
        (∀ r, r ≠ d → t.fr.getV r = s.fr.getV r)

/-- R109 to R111: a vector store whose active elements all pass their checks writes each element's bits at its address,
the highest active element of those at one place remaining; a t6 store leaves the other bits of its groups; no other byte of memory and no register changes. -/
def Obligations.VectorStores : Prop :=
  ∀ (f : Fmt) (d b : VReg) (a sb : SReg) (pr : PReg) (s : State), s.fr.cls ≠ 0 → s.mem.wf = true →
    let on (e : Nat) : Prop := e < fmtCount f ∧ active f (s.fr.getP pr) e = true
    let base := s.srcA a
    let forms : List (Instr × (Nat → Word)) :=
      [(.vstlUnit f d a pr, fun e => base + .ofNat 64 (if f = .t6 then 3 * (e / 4) else e * (fmtWidth f / 8))),
       (.vstlStr f d a sb pr, fun e => base + .ofNat 64 e * s.srcB sb),
       (.vstlSca f d a b pr, fun e => base + .ofNat 64 (elem .n32 (s.fr.getV b) (e * 64 / fmtCount f)))]
    ∀ x ∈ forms,
      let key (e : Nat) : Nat := localKey s.here (x.2 e).toNat
      (∀ e, on e → s.fr.localFault (x.2 e).toNat (memBytes f) (memAlign f) = none) →
      ∃ t, Gives x.1 s t ∧
        (∀ p, (∀ e, on e → p < key e ∨ key e + memBytes f ≤ p) → t.mem.get p = s.mem.get p) ∧
        (f ≠ .t6 → ∀ e, on e → (∀ e', on e' → e < e' → key e' ≠ key e) →
          t.mem.value (key e) (memBytes f) = elem f (s.fr.getV d) e) ∧
        (f = .t6 → x.1 = .vstlUnit f d a pr → ∀ e, e < 256 →
          t.mem.value (key e) 3 / 64 ^ (e % 4) % 64 =
            if active f (s.fr.getP pr) e then elem f (s.fr.getV d) e
            else s.mem.value (key e) 3 / 64 ^ (e % 4) % 64) ∧
        t = { s.putFr (past s s.fr) with mem := t.mem, poison := t.poison }

/-- R110: the first active element, in ascending order, that fails BOUND, ALIGN or ACCESS raises that trap with its
address, and a group of page 2 in class 0 raises ILLEGAL (R135); nothing else happens. -/
def Obligations.VectorAccessChecks : Prop :=
  ∀ (f : Fmt) (d b : VReg) (a sb : SReg) (pr : PReg) (s : State),
    let on (e : Nat) : Prop := e < fmtCount f ∧ active f (s.fr.getP pr) e = true
    let base := s.srcA a
    let unit (e : Nat) : Word := base + .ofNat 64 (if f = .t6 then 3 * (e / 4) else e * (fmtWidth f / 8))
    let strided (e : Nat) : Word := base + .ofNat 64 e * s.srcB sb
    let lanes (e : Nat) : Word := base + .ofNat 64 (elem .n32 (s.fr.getV b) (e * 64 / fmtCount f))
    let forms : List (Instr × (Nat → Word)) :=
      [(.vldlUnit f d a pr, unit), (.vldlStr f d a sb pr, strided), (.vldlGat f d a b pr, lanes),
       (.vldlBc f d a pr, fun _ => base), (.vstlUnit f d a pr, unit), (.vstlStr f d a sb pr, strided),
       (.vstlSca f d a b pr, lanes)]
    ∀ x ∈ forms,
      (s.fr.cls = 0 → Gives x.1 s (s.trap 1 s.baseVal)) ∧
      (s.fr.cls ≠ 0 → ∀ (e c : Nat), on e → s.fr.localFault (x.2 e).toNat (memBytes f) (memAlign f) = some c →
        (∀ e', on e' → e' < e → s.fr.localFault (x.2 e').toNat (memBytes f) (memAlign f) = none) →
        Gives x.1 s (s.trap c (x.2 e)))

/-! ### Page 3 -/

/-- R115, R120, R123: tile loads, the zeroing and the load of an accumulator, TMOV and TTRN write their destination
alone, byte by byte or element by element as the rules place them. -/
def Obligations.TileLoadsAndMoves : Prop :=
  ∀ (f : Fmt) (d a : TReg) (da : AReg) (sa sb : SReg) (va : VReg) (s : State), hasBank s →
    let tile (t : State) : TileVal := t.co.getT d
    let size := if f = .t6 then 48 else 64
    let ok (n al : Nat) (x : Nat) : Prop := s.fr.localFault x n al = none ∧ s.poisoned (localKey s.here x) n = false
    let at_ (x k : Nat) : Nat := (s.mem.get (localKey s.here x + k)).toNat
    ((∀ r, r < 32 → ok size 16 (rowAt s sa sb r)) → ∃ t, Gives (.tld f d sa sb) s t ∧
      (∀ r k, r < 32 → k < 64 →
        tileByte (tile t) (64 * r + k) = if k < size then at_ (rowAt s sa sb r) k else 0) ∧
      t = withCore s s.fr (s.co.setT d (tile t))) ∧
    (f ∈ [Fmt.bf16, .f16, .t8] →
      let n := if f = .t8 then 64 else 32
      (∀ c, c < n → ok (if f = .t8 then 32 else 64) 16 (rowAt s sa sb c)) → ∃ t, Gives (.tldT f d sa sb) s t ∧
        (∀ r c, r < 32 → c < n → tileElem f (tile t) r c =
          if f = .t8 then at_ (rowAt s sa sb c) r
          else at_ (rowAt s sa sb c) (2 * r) + 256 * at_ (rowAt s sa sb c) (2 * r + 1)) ∧
        t = withCore s s.fr (s.co.setT d (tile t))) ∧
    Gives (.azero da) s (withCore s s.fr (s.co.setA da (Vector.replicate 1024 0))) ∧
    (ok 4096 32 (s.srcA sa).toNat → ∃ t, Gives (.ald da sa) s t ∧
      (∀ i j, i < 32 → j < 32 →
        (accElem (t.co.getA da) i j).toNat = s.mem.value (localKey s.here (s.srcA sa).toNat + 128 * i + 4 * j) 4) ∧
      t = withCore s s.fr (s.co.setA da (t.co.getA da))) ∧
    (∃ t, Gives (.tmov f d va sb) s t ∧
      (∀ r k, r < 32 → k < 64 → tileByte (tile t) (64 * r + k) =
        let q := (r + 32 - (s.srcB sb).toNat % 32) % 32
        if q < 4 then (if k < size then ((s.fr.getV va).toList.getD (size * q + k) 0).toNat else 0)
        else tileByte (s.co.getT d) (64 * r + k)) ∧
      t = withCore s s.fr (s.co.setTPart d (tile t))) ∧
    (f ∈ [Fmt.bf16, .f16] → ∃ t, Gives (.ttrn f d a) s t ∧
      (∀ r c, r < 32 → c < 32 → tileElem f (tile t) r c = tileElem f (s.co.getT a) c r) ∧
      t = withCore s s.fr (s.co.setT d (tile t)))

/-- R115, R120: TST stores its 32 rows, of those that overlap the highest, and AST its 4,096 bytes; nothing else
changes. -/
def Sys2Proof.Claims.TileStores : Prop :=
  ∀ (f : Fmt) (d : TReg) (da : AReg) (sa sb : SReg) (s : State), hasBank s → s.mem.wf = true →
    let size := if f = .t6 then 48 else 64
    let key (r : Nat) : Nat := localKey s.here (rowAt s sa sb r)
    ((∀ r, r < 32 → s.fr.localFault (rowAt s sa sb r) size 16 = none) → ∃ t, Gives (.tst f d sa sb) s t ∧
      (∀ p, (∀ r, r < 32 → p < key r ∨ key r + size ≤ p) → t.mem.get p = s.mem.get p) ∧
      (∀ r k, r < 32 → k < size → (∀ q, r < q → q < 32 → key r + k < key q ∨ key q + size ≤ key r + k) →
        (t.mem.get (key r + k)).toNat = tileByte (s.co.getT d) (64 * r + k)) ∧
      t = { s.putFr (past s s.fr) with mem := t.mem, poison := t.poison }) ∧
    (s.fr.localFault (s.srcA sa).toNat 4096 32 = none → ∃ t, Gives (.ast da sa) s t ∧
      (∀ i j, i < 32 → j < 32 → t.mem.value (localKey s.here (s.srcA sa).toNat + 128 * i + 4 * j) 4 =
        (accElem (s.co.getA da) i j).toNat) ∧
      SameOutside s t (localKey s.here (s.srcA sa).toNat) 4096 ∧
      t = { s.putFr (past s s.fr) with mem := t.mem, poison := t.poison })

/-- R115, R120: a tile access checks its rows in ascending order for BOUND, ALIGN and ACCESS, a transposing load the rows in
memory that are its columns, ALD and AST their address once; the first failure is a precise trap with that address and
nothing else changes. -/
def Sys2Proof.Claims.TileAccessChecks : Prop :=
  ∀ (f : Fmt) (d : TReg) (da : AReg) (sa sb : SReg) (s : State) (c : Nat), hasBank s →
    let size := if f = .t6 then 48 else 64
    (∀ r, r < 32 → s.fr.localFault (rowAt s sa sb r) size 16 = some c →
      (∀ q, q < r → s.fr.localFault (rowAt s sa sb q) size 16 = none) →
      Gives (.tld f d sa sb) s (s.trap c (.ofNat 64 (rowAt s sa sb r))) ∧
      Gives (.tst f d sa sb) s (s.trap c (.ofNat 64 (rowAt s sa sb r)))) ∧
    (f ∈ [Fmt.bf16, .f16, .t8] → ∀ r, r < (if f = .t8 then 64 else 32) →
      s.fr.localFault (rowAt s sa sb r) (if f = .t8 then 32 else 64) 16 = some c →
      (∀ q, q < r → s.fr.localFault (rowAt s sa sb q) (if f = .t8 then 32 else 64) 16 = none) →
      Gives (.tldT f d sa sb) s (s.trap c (.ofNat 64 (rowAt s sa sb r)))) ∧
    (s.fr.localFault (s.srcA sa).toNat 4096 32 = some c →
      Gives (.ald da sa) s (s.trap c (s.srcA sa)) ∧ Gives (.ast da sa) s (s.trap c (s.srcA sa)))

/-- R115, R120: tile and accumulator stores, and the checks of every tile access. -/
def Obligations.TileStoresAndChecks : Prop :=
  TileStores ∧ TileAccessChecks

/-- R120 to R122: AADD adds element by element, rounding once; ACVT and ACVT.V convert each element out of an
accumulator, SAT replacing an infinity by the largest finite value with NX, the other half of a tapered tile kept. -/
def Obligations.AccumulatorResults : Prop :=
  ∀ (f : Fmt) (d : TReg) (da a : AReg) (vd : VReg) (sb : SReg) (mode : BitVec 2) (s : State), hasBank s →
    let m : Mode := { rm := s.fr.fcsr.toNat % 8, fz := s.fr.fcsr.getLsbD 3 }
    let old (i j : Nat) : BitVec 32 := accElem (s.co.getA a) i j
    let num (x : BitVec 32) : FpNum := fF32.decode m.fz x.toNat
    let sum (i j : Nat) : Nat × Flags := fF32.add m (num (accElem (s.co.getA da) i j)) (num (old i j))
    let conv (i j : Nat) : Nat × Flags := convert .f32 f m (old i j).toNat
    let capped (i j : Nat) : Prop :=
      ∃ ff, fmtFloat f = some ff ∧ mode[1] = true ∧ ((conv i j).1 = ff.inf false ∨ (conv i j).1 = ff.inf true)
    (∃ t, Gives (.aadd da a) s t ∧
      (∀ i j, i < 32 → j < 32 → (accElem (t.co.getA da) i j).toNat = (sum i j).1) ∧
      Raised s t 32 32 (fun i j => (sum i j).2) ∧
      t = withCore s { s.fr with fcsr := t.fr.fcsr } (s.co.setA da (t.co.getA da))) ∧
    (f ∈ [Fmt.bf16, .f16, .t8, .t6] → ∃ t, Gives (.acvt f d a mode) s t ∧
      (∀ i j, i < 32 → j < 32 →
        let y := (conv i j).1
        match fmtFloat f with
        | some _ => (capped i j → tileElem f (t.co.getT d) i j = y - 1) ∧ (¬capped i j → tileElem f (t.co.getT d) i j = y)
        | none =>
          tileElem f (t.co.getT d) i (if mode[0] then j + 32 else j) = y ∧
          tileElem f (t.co.getT d) i (if mode[0] then j else j + 32) =
            tileElem f (s.co.getT d) i (if mode[0] then j else j + 32)) ∧
      (f = .t6 → ∀ i k, i < 32 → 48 ≤ k → k < 64 → tileByte (t.co.getT d) (64 * i + k) = 0) ∧
      (∀ k, t.fr.fcsr.getLsbD k = true ↔ s.fr.fcsr.getLsbD k = true ∨ (8 ≤ k ∧ ∃ i j, i < 32 ∧ j < 32 ∧
        ((conv i j).2.getLsbD (k - 8) = true ∨ (capped i j ∧ flagNX.getLsbD (k - 8) = true)))) ∧
      t = withCore s { s.fr with fcsr := t.fr.fcsr }
        (if f = .t8 ∨ f = .t6 then s.co.setTPart d (t.co.getT d) else s.co.setT d (t.co.getT d))) ∧
    (f ∈ [Fmt.bf16, .f16, .f32, .t8, .t6] → ∃ t, Gives (.acvtV f vd a sb) s t ∧
      (∀ e, e < fmtCount f →
        let x := old (((s.srcB sb).toNat + e / 32) % 32) (e % 32)
        elem f (t.fr.getV vd) e = if f = .f32 then x.toNat else (convert .f32 f m x.toNat).1) ∧
      (f = .t6 → TailZero (t.fr.getV vd)) ∧
      Raised s t (fmtCount f) 1 (fun e _ => if f = .f32 then 0 else
        (conv (((s.srcB sb).toNat + e / 32) % 32) (e % 32)).2) ∧
      t = s.putFr (past s { s.fr.setVAll vd (t.fr.getV vd) with fcsr := t.fr.fcsr }))

/-- R117, R118: a matrix multiply whose formats are a pair of R67 and whose scale vectors and block pass their checks
starts: the unit holds what it sampled and a shadow of A[d]; the registers of the bank are as before. A pair outside R67
is ILLEGAL; then the scale vectors are checked for BOUND and ACCESS, and TMMA.SP's block for BOUND, ALIGN and ACCESS, the first
failure a precise trap with its address.
The model's choice, no rule of the spec, where it rests on log entry 25. -/
def Obligations.MatrixMultiplyStarts : Prop :=
  ∀ (d : AReg) (a b : TReg) (sb : SReg) (s : State), hasBank s →
    let fa := s.fr.fmta.toNat % 16
    let fb := s.fr.fmtb.toNat % 16
    let ieee (c : Nat) : Prop := c = 6 ∨ c = 7
    let taper (c : Nat) : Prop := c = 9 ∨ c = 10
    let pair := (ieee fa ∧ ieee fb) ∨ (taper fa ∧ taper fb)
    let scaled := s.fr.fmta.getLsbD 4
    let bsize := if fb = 10 then 1536 else 2048
    let clear (x n al : Nat) : Prop := s.fr.localFault x n al = none ∧ s.poisoned (localKey s.here x) n = false
    let started (i : Instr) (kind : MmaKind) (tb : TReg) : Prop :=
      ∃ m, Gives i s (withCore s s.fr { s.co with tmma := some m }) ∧ m.frame = s.cur ∧ m.kind = kind ∧ m.d = d ∧
        m.a = a ∧ m.b = tb ∧ m.fmta.toNat = fa ∧ m.fmtb.toNat = fb ∧ m.scaled = scaled ∧
        m.rm.toNat = s.fr.fcsr.toNat % 8 ∧ m.fz = s.fr.fcsr.getLsbD 3 ∧ m.shadow = s.co.getA d ∧
        (scaled = true → ∀ k, k < 32 →
          (m.scaleA.getD k 0).toNat = s.mem.value (localKey s.here (s.scaleAddrs.1 + 4 * k)) 4 ∧
          (m.scaleB.getD k 0).toNat = s.mem.value (localKey s.here (s.scaleAddrs.2 + 4 * k)) 4) ∧
        (kind = .sp → m.block = s.mem.read (localKey s.here (s.srcB sb).toNat) bsize)
    (pair → (scaled = true → clear s.scaleAddrs.1 128 1 ∧ clear s.scaleAddrs.2 128 1) →
      started (.tmma d a b) .plain b ∧ started (.tmmaBt d a b) .bt b ∧
      (clear (s.srcB sb).toNat bsize 32 → started (.tmmaSp d a sb) .sp 0)) ∧
    (¬pair → ∀ i ∈ [Instr.tmma d a b, .tmmaBt d a b, .tmmaSp d a sb], Gives i s (s.trap 1 s.baseVal)) ∧
    (let fails (x n al c : Nat) : Prop := (c = 4 ∧ 0x80000 < x + n) ∨ (c = 3 ∧ x + n ≤ 0x80000 ∧ x % al ≠ 0) ∨
       (c = 6 ∧ x + n ≤ 0x80000 ∧ x % al = 0 ∧ s.fr.inS = false ∧ 0x60000 < x + n)
     let A := s.scaleAddrs.1
     let B := s.scaleAddrs.2
     let block := (s.srcB sb).toNat
     (s.issue.inRep = false → A = s.fr.scla.toNat % 2 ^ 19 / 32 * 32 ∧ B = s.fr.sclb.toNat % 2 ^ 19 / 32 * 32) ∧
     (pair → scaled = true → ∀ c, ∀ i ∈ [Instr.tmma d a b, .tmmaBt d a b, .tmmaSp d a sb],
       (fails A 128 1 c → Gives i s (s.trap c (.ofNat 64 A))) ∧
       (s.fr.localFault A 128 1 = none → fails B 128 1 c → Gives i s (s.trap c (.ofNat 64 B)))) ∧
     (pair → (scaled = true → s.fr.localFault A 128 1 = none ∧ s.fr.localFault B 128 1 = none) →
       ∀ c, fails block bsize 32 c → Gives (.tmmaSp d a sb) s (s.trap c (.ofNat 64 block))) ∧
     ∀ x n al c, 0 < n → (s.fr.localFault x n al = some c ↔ fails x n al c))

/-- R68, R116, R118: when a started multiply completes, each element of its accumulator is the element computation of
R68 on row i of A and column j of B as R116 places them, from the shadow and the samples; its flags are raised and the
unit is free. -/
def Sys2Proof.Claims.MatrixMultiplyCompletes : Prop :=
  ∀ (c : Nat) (m : Tmma) (fa fb : Fmt) (s : State), (s.coreAt c).tmma = some m →
    mmaPair m.fmta.toNat m.fmtb.toNat = some (fa, fb) →
    let co := s.coreAt c
    let taper := fa = .t8 ∨ fa = .t6
    let k := if taper then 64 else 32
    let numA (i q : Nat) : FpNum := mmaNum fa m.fz (tileElem fa (co.getT m.a) i q)
    let width := if fb = .t6 then 24 else if fb = .t8 then 32 else 64
    let rowB (q j : Nat) : Nat :=
      let row := (m.block.drop (width * q)).take width
      if fb = .t6 then (unpack6 8 row).getD j 0
      else if fb = .t8 then (row.getD j 0).toNat else leValue ((row.drop (2 * j)).take 2)
    let bitsB (q j : Nat) : Nat := match m.kind with
      | .sp => rowB q j
      | .bt => tileElem fb (co.getT m.b) j q
      | .plain => if taper then tileElem fb (co.getT m.b) j q else tileElem fb (co.getT m.b) q j
    let sc (i j : Nat) : Option (BitVec 32 × BitVec 32) :=
      if m.scaled then some (m.scaleA.getD i 0, m.scaleB.getD j 0) else none
    let result (i j : Nat) : BitVec 32 × Flags :=
      mmaElem { rm := m.rm.toNat, fz := m.fz } (sc i j) (accElem m.shadow i j)
        ((List.range k).map fun q => (numA i q, mmaNum fb m.fz (bitsB q j)))
    ∃ t, Gives (.tmmaComplete c) s t ∧ (t.coreAt c).tmma = none ∧
      (∀ i j, i < 32 → j < 32 → accElem ((t.coreAt c).getA m.d) i j = (result i j).1) ∧
      (∀ b, (t.frameAt m.frame).fcsr.getLsbD b = true ↔ (s.frameAt m.frame).fcsr.getLsbD b = true ∨
        (8 ≤ b ∧ ∃ i j, i < 32 ∧ j < 32 ∧ (result i j).2.getLsbD (b - 8) = true)) ∧
      (∀ x, x ≠ m.d → (t.coreAt c).getA x = co.getA x) ∧ (t.coreAt c).tiles = co.tiles ∧
      (t.frameAt m.frame).pc = (s.frameAt m.frame).pc ∧ t.mem = s.mem

/-- R318: a residue error in a running multiply replays it, and the third raises MCHECK with DETAIL 3 at it, its
accumulator as at its start, and for a captured one with the sequencer standing at it (R23). -/
def Sys2Proof.Claims.MatrixResidueReplay : Prop :=
  ∀ (c : Nat) (m : Tmma) (s : State), (s.coreAt c).tmma = some m →
    (m.errors < 2 → Gives (.matrixResidueError c) s
      (s.putCore c { s.coreAt c with tmma := some { m with errors := m.errors + 1 } })) ∧
    (2 ≤ m.errors → Gives (.matrixResidueError c) s
      (((s.putCore c { (s.coreAt c).setA m.d m.shadow with tmma := none }).putFrame m.frame
        (if m.inRep then (s.frameAt m.frame).suspendAt m.rep else s.frameAt m.frame)).takeTrapIn
          m.frame 0x1F 3 m.pc 0 m.len 0))

/-- R68, R69, R116, R118: how a started multiply ends: with its result, or by a residue error.
The model's choice, no rule of the spec, where it rests on log entries 29 and 84. -/
def Obligations.MatrixMultiplyEnds : Prop :=
  MatrixMultiplyCompletes ∧ MatrixResidueReplay

/-- R68: what one element's computation gives: the canonical NaN for a NaN operand or accumulator, for 0 times infinity and for
products that are infinities of both signs; an infinite sum for infinities of one sign; otherwise the once-rounded exact sum, by
the rounded product of the scales where it is scaled, added to the accumulator, with the flags of each rounding. The sign of an
exact sum of zero is the model's (log entry 83).
The model's choice, no rule of the spec, where it rests on log entry 83. -/
def Obligations.MatrixElementRule : Prop :=
  ∀ (m : Mode) (acc : BitVec 32) (xs : List (FpNum × FpNum)),
    let c := fF32.decode m.fz acc.toNat
    let nan := xs.any fun p => p.1.isNaN || p.2.isNaN
    let infinite (neg : Bool) : Prop := ∃ p ∈ xs, p.1.mul p.2 = some (.inf neg)
    (nan = true → ∀ sc, mmaElem m sc acc xs = (0x7FC00000#32, flagNV)) ∧
    (nan = false → c.isNaN = true → ∀ sc, mmaElem m sc acc xs = (0x7FC00000#32, if c.isSNaN then flagNV else 0)) ∧
    (nan = false → c.isNaN = false → (∃ p ∈ xs, p.1.mul p.2 = none) → ∀ sc, mmaElem m sc acc xs = (0x7FC00000#32, flagNV)) ∧
    (nan = false → c.isNaN = false → infinite false → infinite true → ∀ sc, mmaElem m sc acc xs = (0x7FC00000#32, flagNV)) ∧
    (∀ neg : Bool, nan = false → c.isNaN = false → (∀ p ∈ xs, p.1.mul p.2 ≠ none) → infinite neg → ¬infinite (!neg) →
      mmaElem m none acc xs = if c = .inf (!neg) then (0x7FC00000#32, flagNV)
        else (if neg then 0xFF800000#32 else 0x7F800000#32, 0)) ∧
    (∀ neg : Bool, nan = false → c.isNaN = false → (∀ p ∈ xs, p.1.mul p.2 ≠ none) → infinite neg → ¬infinite (!neg) →
      ∀ u w : BitVec 32,
        let scale := fF32.mul m (fF32.decode m.fz u.toNat) (fF32.decode m.fz w.toNat)
        let p := fF32.mul m (.inf neg) (fF32.decode m.fz scale.1)
        let r := fF32.add m c (fF32.decode m.fz p.1)
        mmaElem m (some (u, w)) acc xs = (.ofNat 32 r.1, scale.2 ||| p.2 ||| r.2)) ∧
    (∀ (v e : Int), (∀ p ∈ xs, ∃ (na nb : Bool) (ma mb : Nat) (ea eb : Int),
        p = (.fin na ma ea, .fin nb mb eb) ∧ e ≤ ea + eb) → c.isNaN = false →
      v = (xs.map fun p => match p.1, p.2 with
        | .fin na ma ea, .fin nb mb eb => finAt (na != nb) (ma * mb) (ea + eb) e
        | _, _ => 0).sum →
      let num (x : Nat × Flags) : FpNum := fF32.decode m.fz x.1
      (v = 0 → xs ≠ [] →
        let minus (p : FpNum × FpNum) : Bool := p.1.isNeg != p.2.isNeg
        let zero (p : FpNum × FpNum) : Bool := p.1.isZero || p.2.isZero
        let neg := decide (∀ p ∈ xs, zero p = true ∧ minus p = true) ||
          (decide (m.rm = 3) && !decide (∀ p ∈ xs, zero p = true ∧ minus p = false))
        mmaElem m none acc xs = (.ofNat 32 (fF32.add m c (.fin neg 0 0)).1, (fF32.add m c (.fin neg 0 0)).2) ∧
        ∀ u w : BitVec 32,
          let scale := fF32.mul m (fF32.decode m.fz u.toNat) (fF32.decode m.fz w.toNat)
          let q := fF32.mul m (.fin neg 0 0) (num scale)
          let r := fF32.add m c (num q)
          mmaElem m (some (u, w)) acc xs = (.ofNat 32 r.1, scale.2 ||| q.2 ||| r.2)) ∧
      (v ≠ 0 →
        let p := fF32.round m (.fin (decide (v < 0)) v.natAbs e)
        let r := fF32.add m c (num p)
        mmaElem m none acc xs = (.ofNat 32 r.1, p.2 ||| r.2) ∧
        ∀ u w : BitVec 32,
          let scale := fF32.mul m (fF32.decode m.fz u.toNat) (fF32.decode m.fz w.toNat)
          let q := fF32.mul m (num p) (num scale)
          let r := fF32.add m c (num q)
          mmaElem m (some (u, w)) acc xs = (.ofNat 32 r.1, p.2 ||| scale.2 ||| q.2 ||| r.2)))

/-- R135: in class 0 every group of pages 2 and 3, and in class 1 every group of page 3 but the RPT family, raises ILLEGAL
with TRAPVAL for the base word. -/
def Sys2Proof.Claims.ClassesLimitUnits : Prop :=
  ∀ (i : Instr) (s : State), i.wf = true →
    (s.fr.cls = 0 → onPage 2 i ∨ onPage 3 i → Gives i s s.illegal) ∧
    (s.fr.cls = 1 → onPage 3 i → isRepeat i = false → Gives i s s.illegal) ∧
    s.illegal = s.trap 1 (.ofNat 64 (s.issue.base.toNat + (s.issue.len - 1) * 65536))

/-- R11, R133, R134, R319: a matrix group of a frame that finds the bank free becomes its owner, seeing zeros the first time in
its chunk and its save area later; with another owner the frame waits in SWAP, and the exchange writes the owner's bank
to its save area, makes the first in the queue the owner and READY with zeros or its own save area in the bank, and protects it
until it has been the issuing frame; one that is told to stop gets no bank. -/
def Sys2Proof.Claims.MatrixBankOwnership : Prop :=
  ∀ (d : AReg) (s : State), 2 ≤ s.fr.cls.toNat →
    (∀ i, isMatrixGroup i = true → s.co.owner = none → s.co.swapQueue = [] → s.co.tmma = none →
      ∃ u, exec i s = exec i u ∧ u.co.owner = some (.ofNat 2 s.cur) ∧ u.fr = { s.fr with ownedMatrix := true } ∧
        (s.mem.wf = true → SameOutside s u (s.recordAt s.fr.handle.toNat) 8) ∧
        (s.fr.ownedMatrix = false → u.co.tiles = Vector.replicate 8 (Vector.replicate 2048 0) ∧
          u.co.accs = Vector.replicate 4 (Vector.replicate 1024 0)) ∧
        (s.fr.ownedMatrix = true → let area := localKey s.here (saveArea s.cur)
          (∀ (x : TReg) (k : Nat), k < 2048 → tileByte (u.co.getT x) k = (s.mem.get (area + 2048 * x.toNat + k)).toNat) ∧
          ∀ (x : AReg) (k : Nat), k < 1024 →
            ((u.co.getA x).toList.getD k 0).toNat = s.mem.value (area + 0x4000 + 4096 * x.toNat + 4 * k) 4)) ∧
    (s.co.owner = none → s.co.swapQueue = [] → ∃ t, Gives (.azero d) s t ∧ t.co.owner = some (.ofNat 2 s.cur)) ∧
    (∀ i o, isMatrixGroup i = true → s.co.owner = some o → o ≠ .ofNat 2 s.cur → ∃ t, Gives i s t ∧
      t.fr = { s.fr with status := .swap } ∧
      t.co.swapQueue = s.co.swapQueue ++ [.ofNat 2 s.cur] ∧ t.co.owner = some o ∧ t.mem = s.mem) ∧
    (∀ (c : Nat) (o r : BitVec 2) (rest : List (BitVec 2)), (s.coreAt c).swapQueue = r :: rest →
      (s.coreAt c).owner = some o → (s.coreAt c).tmma = none → (s.coreAt c).hold = false → s.bankOwes c = false →
      ((s.frameAt (c * 4 + r.toNat)).stopping.isSome = true →
        Gives (.matrixBankExchange c) s (s.putCore c { s.coreAt c with swapQueue := rest })) ∧
      ((s.frameAt (c * 4 + r.toNat)).stopping = none → (∀ h, h < 2 ^ 20 → s.recordAt h + 8 ≤ 2 ^ 42) → s.mem.wf = true →
        ∃ t, Gives (.matrixBankExchange c) s t ∧ (t.coreAt c).owner = some r ∧ (t.coreAt c).swapQueue = rest ∧
          (t.coreAt c).hold = true ∧ (t.frameAt (c * 4 + r.toNat)).status = .ready ∧
          t.mem.read (localKey c (saveArea o.toNat)) 0x8000 = (s.coreAt c).bankBytes ∧
          ((s.frameAt (c * 4 + r.toNat)).ownedMatrix = false → (t.coreAt c).tiles = Vector.replicate 8 (Vector.replicate 2048 0) ∧
            (t.coreAt c).accs = Vector.replicate 4 (Vector.replicate 1024 0)) ∧
          ((s.frameAt (c * 4 + r.toNat)).ownedMatrix = true → r ≠ o →
            (t.coreAt c).bankBytes = s.mem.read (localKey c (saveArea r.toNat)) 0x8000))) ∧
    (∀ c, Gives (.bankHoldExpiry c) s
      (if (s.coreAt c).owner.isSome ∧ (s.coreAt c).issuing = (s.coreAt c).owner then s.putCore c { s.coreAt c with hold := false }
       else s))

/-- R11, R133 to R135: the units that a class may use, and who owns the matrix bank.
The model's choice, no rule of the spec, where it rests on log entries 28 and 82. -/
def Obligations.ClassesAndMatrixBank : Prop :=
  ClassesLimitUnits ∧ MatrixBankOwnership

/-! ### The repeat sequencer -/

/-- R20, R124 to R127: RPT opens a capture; RPTS inside one sets a stagger of the next captured group, outside one it is
ILLEGAL, and so is RPT during a repetition. A captured group joins the body with the scalar operands read at capture and the
staggers that stand; the n-th starts the repetition. One that may not be captured is ILLEGAL, and so is, at its RPTS, a
stagger of a field that the group has not. RPTW retires once nothing is in flight; RPTX then also frees the sequencer.
The model's choice, no rule of the spec, where it rests on log entries 26 and 27. -/
def Obligations.RepeatInstructions : Prop :=
  ∀ (n : BitVec 4) (field : BitVec 3) (imm : Word) (s : State), s.fr.cls ≠ 0 → s.issue.inRep = false →
    (s.fr.rep.active = false → s.fr.capture = none → ∃ t c, Gives (.rpt n imm) s t ∧
      t = s.putFr { s.fr with pc := pcAfter s, capture := some c } ∧
      c.need = n.toNat + 1 ∧ c.count = imm.toNat ∧ c.body = [] ∧ c.fieldPcs = [] ∧ ∀ k : Fin 6, c.stagger[k] = none) ∧
    (∀ x c, s.fr.capture = some c → capturable x = true → (isMatrixGroup x = true → hasBank s) →
      (∀ e ∈ c.fieldPcs, fieldAllowed x e.1 = true) →
      ∃ (t : State) (g : Captured), s.captureGroup x c = .next t ∧
        g = { instr := x, pc := s.fr.pc, len := s.issue.len, base := s.issue.base, sa := s.rs (scalarOperands x).1,
              sb := s.rs (scalarOperands x).2, scla := s.fr.scla, sclb := s.fr.sclb, stagger := c.stagger } ∧
        t = s.putFr { s.fr with pc := pcAfter s, capture := t.fr.capture, rep := t.fr.rep } ∧
        (c.body.length + 1 < c.need → t.fr.rep = s.fr.rep ∧ ∃ c', t.fr.capture = some c' ∧ c'.need = c.need ∧
          c'.count = c.count ∧ c'.body = c.body ++ [g] ∧ c'.fieldPcs = [] ∧ ∀ k : Fin 6, c'.stagger[k] = none) ∧
        (c.need ≤ c.body.length + 1 → t.fr.capture = none ∧ t.fr.rep.trapv = false ∧
          (t.fr.rep.active = true ↔ 0 < c.count) ∧
          (0 < c.count → t.fr.rep.count = c.count ∧ t.fr.rep.body = c.body ++ [g] ∧ t.fr.rep.endPc = pcAfter s ∧
            t.fr.rep.nextIter = 0 ∧ t.fr.rep.nextSlot = 0))) ∧
    (∀ x c, s.fr.capture = some c → capturable x = false → (∀ a b, x ≠ .rpts a b) → (∀ a b, x ≠ .udf a b) →
      (∀ a b, x ≠ .nonInstructionPattern a b) → s.captureGroup x c = .next s.illegal) ∧
    (∀ c, s.fr.capture = some c → s.captureGroup (.rpts field imm) c = exec (.rpts field imm) s) ∧
    (∀ x c, s.fr.capture = some c → capturable x = true → isMatrixGroup x = true → s.fr.cls = 1 → c.fieldPcs = [] →
      s.captureGroup x c = .next s.illegal) ∧
    (∀ x c e later, s.fr.capture = some c → capturable x = true → c.fieldPcs = e :: later → fieldAllowed x e.1 = false →
      s.captureGroup x c =
        .next (s.takeTrapIn s.cur 1 0 e.2.1 (.ofNat 64 (e.2.2.2.toNat + (e.2.2.1 - 1) * 65536)) e.2.2.1 0)) ∧
    (∀ x, (fieldAllowed x 3 = true ↔ hasLocalAddress x = true) ∧ (fieldAllowed x 4 = true ↔ scalesRead x = true) ∧
      (fieldAllowed x 5 = true ↔ scalesRead x = true)) ∧
    (s.fr.rep.active = true → Gives (.rpt n imm) s (s.trap 1 s.baseVal)) ∧
    (s.fr.capture = none → Gives (.rpts field imm) s (s.trap 1 s.baseVal)) ∧
    (∀ c, s.fr.capture = some c → field.toNat < 6 → ∃ t c', Gives (.rpts field imm) s t ∧
      t = s.putFr { s.fr with pc := pcAfter s, capture := some c' } ∧ c'.body = c.body ∧ c'.need = c.need ∧
      (∀ k : Fin 6, c'.stagger[k] = if k.val = field.toNat then some imm else c.stagger[k])) ∧
    (s.fr.rep.active = false ∨ s.fr.rep.trapv = true →
      Gives .rptw s (onlyAdvances s) ∧
      ∃ t, Gives .rptx s t ∧ t = s.putFr { s.fr with pc := pcAfter s, rep := t.fr.rep } ∧ t.fr.rep.active = false ∧
        t.fr.rep.iter = s.fr.rep.iter ∧ t.fr.rep.slot = s.fr.rep.slot ∧ t.fr.rep.trapv = s.fr.rep.trapv ∧
        t.fr.rep.cont = s.fr.rep.cont)

/-- R20, R24: the sequencer visits the entries of the body in order, iteration by iteration, and drains after the last
entry of the last iteration; a drained sequencer is not active. -/
def Sys2Proof.Claims.SequencerOrder : Prop :=
  ∀ r : Repetition, r.active = true → r.nextSlot < r.body.length → r.nextIter < r.count →
    let place (x : Repetition) : Nat := x.nextIter * r.body.length + x.nextSlot
    (place r + 1 < r.count * r.body.length →
      place r.advance = place r + 1 ∧ r.advance.active = true ∧ r.advance.body = r.body ∧
      r.advance.nextSlot < r.body.length ∧ r.advance.nextIter < r.count) ∧
    (place r + 1 = r.count * r.body.length → r.advance.active = false ∧ r.advance.trapv = false)

/-- R20, R21: in iteration i the sequencer executes the captured group with each staggered register field at
(b + i k) mod N, its scalar operands those of the capture, a staggered address taken modulo 2^19. Shown for one group of
three vector fields, a vector load and a matrix multiply; RPT_ITERATION_ISSUE is that step for the frame that R131 leaves
issuing, its quad's union of flags as it was before noted (R72). -/
def Sys2Proof.Claims.SequencerIssuesStaggeredGroup : Prop :=
  ∀ (n i : Nat) (g : Captured) (s : State),
    let f := s.frameAt n
    f.status = .issuing → s.chosenFrame (n / 4) = some n → s.replaying n = false → f.late = [] → f.fenceLoads = [] →
    f.rep.active = true → f.rep.trapv = false → f.poisonV = 0 → f.poisonP = 0 →
    (s.coreAt (n / 4)).poisonT = 0 → (s.coreAt (n / 4)).poisonA = 0 →
    f.rep.body[f.rep.nextSlot]? = some g → i = f.rep.nextIter →
    let k (q : Fin 6) : Word := g.stagger[q].getD 0
    let v (r : VReg) (q : Fin 6) : VReg := .ofNat 5 (r.toNat + i * (k q).toNat)
    let t (r : TReg) (q : Fin 6) : TReg := .ofNat 3 (r.toNat + i * (k q).toNat)
    let ac (r : AReg) (q : Fin 6) : AReg := .ofNat 2 (r.toNat + i * (k q).toNat)
    let latch (sa : Word) : State := { s.sampleFlags (n / 4) (some (n / 4)) with cur := n, issue :=
      { len := g.len, base := g.base, inRep := true, pc := g.pc, sa := sa, sb := g.sb,
        scla := (g.scla + .ofNat 64 i * k 4) &&& 0x7FFFF, sclb := (g.sclb + .ofNat 64 i * k 5) &&& 0x7FFFF } }
    let addr := match g.stagger[3] with
      | some q => (g.sa + .ofNat 64 i * q) &&& 0x7FFFF
      | none => g.sa
    (∀ sat fm d a b pr, g.instr = .vadd sat fm d a b pr → g.stagger[3] = none →
      ∃ u, Gives (.vadd sat fm (v d 0) (v a 1) (v b 2) pr) (latch g.sa) u ∧ Gives (.rptIterationIssue n) s u) ∧
    (∀ fm d a pr, g.instr = .vldlUnit fm d a pr →
      ∃ u, Gives (.vldlUnit fm (v d 0) a pr) (latch addr) u ∧ Gives (.rptIterationIssue n) s u) ∧
    (∀ d a b, g.instr = .tmma d a b → g.stagger[3] = none → (s.coreAt (n / 4)).owner ≠ none →
      ∃ u, Gives (.tmma (ac d 0) (t a 1) (t b 2)) (latch g.sa) u ∧ Gives (.rptIterationIssue n) s u)

/-- R20 to R24: the order in which the repeat sequencer issues, and the group that it issues.
The model's choice, no rule of the spec, where it rests on log entry 5. -/
def Obligations.RepeatSequencer : Prop :=
  SequencerOrder ∧ SequencerIssuesStaggeredGroup

/-! ### Page 4 -/

/-- R255 to R257: a load that passes its checks, is performed as its group issues and meets no earlier access of its frame to its
bytes that is not complete (R238) gives S[d] the value, sign- or zero-extended: from the own scratchpad, at the home of a plain
page when it acquires or bypasses the L1 or, with no posted store of its core to the line on its way, no L1 line holds it, else from
the L1 line. Memory does not change; an acquire at
scope quad or wider leaves the L1 empty. LDPW inside its window is the load at scope core. One left to be performed later (R240)
retires too where its checks are made at the core, and what it will load stands among what the frame has left.
The model's choice, no rule of the spec, where it rests on log entries 61, 71, 100 and 102. -/
def Obligations.GlobalLoads : Prop :=
  ∀ (d a : SReg) (imm : Word) (sz : BitVec 2) (o : Ord) (s : State), s.issue.inRep = false →
    let n := 2 ^ sz.toNat
    let ea := s.rs a + imm * .ofNat 64 n
    let now := s.issue.defer = false ∨ o.order ≠ .plain
    let sext (v : Nat) : Word := (BitVec.ofNat (8 * n) v).signExtend 64
    let acq := o.scope ≠ .core ∧ (o.order = .acquire ∨ o.order = .both)
    let clear (k : Nat) : Prop := s.overlaps k n = false ∧ s.overlapsLate k n = false ∧ s.poisoned k n = false
    let fills (pa : Nat) : Prop := s.co.l1Get pa n = none ∧ s.linePosted s.here (pa / 32) = false
    let loads (i : Instr) (w : Word) (empties hit : Prop) : Prop :=
      ∃ t, Gives i s t ∧ t.fr = past s { s.fr.setS d w with seen := t.fr.seen } ∧ (¬hit → t.fr.seen = s.fr.seen) ∧
        t.mem = s.mem ∧ t.msgs = s.msgs ∧ (empties → t.co.l1 = []) ∧ (∀ k, k ≠ s.cur → t.frameAt k = s.frameAt k)
    (∀ pa, now → s.place ea n { r := true } = .ok (.mem pa 0) → clear pa →
      (acq ∨ o.hint = .bypass ∨ fills pa) →
      loads (.ldg d a imm sz o) (sext (s.mem.value pa n)) acq False ∧
      loads (.ldgn d a imm sz o) (.ofNat 64 (s.mem.value pa n)) acq False) ∧
    (∀ pa bs, now → s.place ea n { r := true } = .ok (.mem pa 0) → s.overlapsLate pa n = false → ¬acq → o.hint ≠ .bypass →
      s.co.l1Get pa n = some bs → s.co.l1Poisoned pa = false →
      loads (.ldg d a imm sz o) (sext (leValue bs)) False True ∧
      loads (.ldgn d a imm sz o) (.ofNat 64 (leValue bs)) False True) ∧
    (∀ l, now → s.place ea n { r := true } = .ok (.pad l) → clear (localKey s.here l) →
      loads (.ldg d a imm sz o) (sext (s.mem.value (localKey s.here l) n)) acq False ∧
      loads (.ldgn d a imm sz o) (.ofNat 64 (s.mem.value (localKey s.here l) n)) acq False) ∧
    (∀ p, ¬now → s.place ea n { r := true } = .ok p → p.mayWait = true → s.overlapsLate (s.placeKey p) n = false →
      ∀ i ∈ [Instr.ldg d a imm sz o, .ldgn d a imm sz o], ∃ t x, Gives i s t ∧
        t.fr = past s { s.fr with late := s.fr.late ++ [x] } ∧ x.isStore = false ∧ x.touches (s.placeKey p) n = true ∧
        t.mem = s.mem) ∧
    (∀ (w : Fin 4) (b : SReg) (pa : Nat), s.issue.defer = false → n ≤ s.fr.pws[w].toNat →
      (s.rs b).toNat ≤ s.fr.pws[w].toNat - n →
      s.place (s.fr.pwb[w] + s.rs b) n { r := true } = .ok (.mem pa 0) → clear pa → fills pa →
      loads (.ldpw d (.ofFin w) b sz) (sext (s.mem.value pa n)) False False)

/-- R232, R255, R261, R263, R268: the checks of page 4. The first that fails is a precise trap with the address in TRAPVAL, taken
where the translation caches hold what the access has looked up:
XLATE for a malformed address, ALIGN, then what the target's rules give; LDPW outside its window is PWIN with the
offset. PREF never traps. -/
def Sys2Proof.Claims.GlobalAccessChecks : Prop :=
  ∀ (d a b : SReg) (imm : Word) (sz : BitVec 2) (asz : AmoSize) (o : Ord) (s : State) (c : Nat),
    let n := 2 ^ sz.toNat
    let ea := s.rs a + imm * .ofNat 64 n
    let m := amoBytes asz
    (∀ x k p post, addrForm x = false → s.place x k p post = .error 5) ∧
    (∀ x k p post, addrForm x = true → x.toNat % k ≠ 0 → s.place x k p post = .error 3) ∧
    let from_ (x : Word) (k : Nat) : State := s.looked x k
    (s.place ea n { r := true } = .error c →
      Gives (.ldg d a imm sz o) s ((from_ ea n).trap c ea) ∧ Gives (.ldgn d a imm sz o) s ((from_ ea n).trap c ea)) ∧
    (s.place ea n { w := true } true = .error c → Gives (.stg d a imm sz o) s ((from_ ea n).trap c ea)) ∧
    (s.place (s.rs a) m { r := true, w := true } = .error c →
      ∀ i ∈ [Instr.amoadd asz d a b o, .amoand asz d a b o, .amoor asz d a b o, .amoxor asz d a b o,
             .amomin asz d a b o, .amomax asz d a b o, .amominn asz d a b o, .amomaxn asz d a b o,
             .amoswp asz d a b o, .amocas asz d a b o], Gives i s ((from_ (s.rs a) m).trap c (s.rs a))) ∧
    (s.linePlace (s.rs a) { r := true } = .error c →
      ∀ i ∈ [Instr.cpin d a, .cunpin d a], Gives i s ((from_ (s.rs a) 1).trap c (s.rs a))) ∧
    (s.linePlace (s.rs a) { r := true } true = .error c →
      ∀ i ∈ [Instr.cclean a o, .cinv a o], Gives i s ((from_ (s.rs a) 1).trap c (s.rs a))) ∧
    (s.linePlace (s.rs a) { w := true } true = .error c → Gives (.cdisc a o) s ((from_ (s.rs a) 1).trap c (s.rs a))) ∧
    (∀ w : Fin 4, s.fr.pws[w].toNat < n ∨ s.fr.pws[w].toNat - n < (s.rs b).toNat →
      Gives (.ldpw d (.ofFin w) b sz) s (s.trap 0x0A (s.rs b) w.val)) ∧
    (s.issue.inRep = false → ∃ t, Gives (.pref a o) s t ∧ t.fr = past s s.fr ∧ t.mem = s.mem)

/-- R243, R244, R257: STG to device memory with a free journal entry retires at once, a release too: it holds the lowest free
entry, the access is on its way to its home with the release that it is, and no byte of memory has changed. STG to the own
scratchpad is performed at once, a release once it has nothing to wait for, or, one that releases nothing, left in parts that
store its bytes (R224, R240). -/
def Sys2Proof.Claims.StoresArePosted : Prop :=
  ∀ (d a : SReg) (imm : Word) (sz : BitVec 2) (o : Ord) (s : State), s.issue.inRep = false →
    let n := 2 ^ sz.toNat
    let ea := s.rs a + imm * .ofNat 64 n
    let low : Word := .ofNat 64 ((s.rs d).toNat % 2 ^ (8 * n))
    let releases := o.order = .release ∨ o.order = .both
    (∀ pa kind (i : Fin 16), s.place ea n { w := true } true = .ok (.mem pa kind) → s.overlapsLate pa n = false →
      s.fr.journal[i].busy = false → (∀ k : Fin 16, k < i → s.fr.journal[k].busy = true) →
      ∃ t m, Gives (.stg d a imm sz o) s t ∧ t.msgs = s.msgs ++ [.posted m] ∧ t.mem = s.mem ∧ m.home = pa ∧
        m.addr = ea ∧ m.size = n ∧ m.data = low ∧ m.kind = 0 ∧ m.frame = s.cur ∧ m.entry = i.val ∧
        (¬releases → m.release = none) ∧ (releases → m.release = some (o.scope != .core)) ∧
        t.fr.journal[i].busy = true ∧ t.fr.journal[i].addr = ea ∧ t.fr.journal[i].data = low ∧
        t.fr = past s { s.fr with journal := t.fr.journal } ∧
        (∀ k : Fin 16, k ≠ i → t.fr.journal[k] = s.fr.journal[k])) ∧
    (∀ l, s.place ea n { w := true } true = .ok (.pad l) → s.overlapsLate (localKey s.here l) n = false →
      s.issue.defer = true → o.order = .plain → ∃ t xs, Gives (.stg d a imm sz o) s t ∧
        t.fr = past s { s.fr with late := s.fr.late ++ xs } ∧ t.mem = s.mem ∧ (∀ x ∈ xs, x.isStore = true) ∧
        ∀ k, k < n → ∃ x ∈ xs, x.touches (localKey s.here l + k) 1 = true) ∧
    (∀ l, s.place ea n { w := true } true = .ok (.pad l) → s.overlapsLate (localKey s.here l) n = false →
      s.issue.defer = false ∨ o.order ≠ .plain → (releases → s.releasable (o.scope != .core) = true) → s.mem.wf = true →
      ∃ t, Gives (.stg d a imm sz o) s t ∧ SameOutside s t (localKey s.here l) n ∧
        t.mem.value (localKey s.here l) n = (s.rs d).toNat % 2 ^ (8 * n) ∧
        t = { s.putFr (past s s.fr) with mem := t.mem, poison := t.poison })

/-- R244, R255 to R257, R261, R263, R268: the checks of page 4, and a store that passes them.
The model's choice, no rule of the spec, where it rests on log entries 56, 61, 101, 102, 113, 125 and 126. -/
def Obligations.GlobalChecksAndPostedStores : Prop :=
  GlobalAccessChecks ∧ StoresArePosted

/-- R236, R243, R244, R317: a posted store in device memory, a release once it has nothing to wait for, is performed at its home as
one step and acknowledged; the acknowledgement frees the journal entry, and lets go the FENCEs of its core that waited for it; a
refusal keeps it, marked refused, and makes JOURNAL pending; a store to
another core's scratchpad that no open window covers is refused with ACCESS.
The model's choice, no rule of the spec, where it rests on log entries 9 and 61. -/
def Obligations.PostedStoreLifecycle : Prop :=
  ∀ (s : State) (rest : List Msg),
    (∀ m : Posted, s.msgs = .posted m :: rest → s.mayPerform m = true → m.remote = false → m.kind = 0 → m.size ≤ 8 → s.mem.wf = true →
      (regionOf m.home = 0 → ∃ t, Gives (.homeStorePerform 0) s t ∧
        t.mem.value m.home m.size = m.data.toNat % 2 ^ (8 * m.size) ∧ SameOutside s t m.home m.size ∧
        t.msgs = rest ++ [.ack m.frame m.handle m.entry] ∧ t.frames = s.frames) ∧
      (regionOf m.home = 1 → s.exposed (coreOfKey m.home) (localOfKey m.home) m.size false = false →
        ∃ t, Gives (.homeStorePerform 0) s t ∧ t.mem = s.mem ∧ t.frames = s.frames ∧
          t.msgs = rest ++ [.refusal m.frame m.handle m.entry 6])) ∧
    (∀ n h (e : Fin 16), s.msgs = .ack n h e.val :: rest → (s.frameAt n).handle = h → (s.frameAt n).status ≠ .empty →
      Gives (.storeAck 0) s ((({ s with msgs := rest } : State).putFrame n
        { s.frameAt n with journal := (s.frameAt n).journal.set e {} }).settleFences (n / 4))) ∧
    (∀ n h (e : Fin 16) c, s.msgs = .refusal n h e.val c :: rest → (s.frameAt n).handle = h →
      (s.frameAt n).status ≠ .empty →
      Gives (.storeRefusal 0) s ((({ s with msgs := rest } : State).putFrame n
        { s.frameAt n with
          journal := (s.frameAt n).journal.set e { (s.frameAt n).journal[e] with refused := true }
          pendJournal := (s.frameAt n).pendJournal ++ [(e.val, c)] }).settleFences (n / 4))) ∧
    (∀ n h d v, s.msgs = .load n h d v none :: rest → (s.frameAt n).handle = h → (s.frameAt n).status = .parked →
      ∃ t, Gives (.loadReply 0) s t ∧
        t.frameAt n = { (s.frameAt n).setS d v with status := .ready, parkedOn := .none })

/-- R258, R259: an AMO at a home of device memory reads the old value into S[d], extended as its row says, and writes the
new one in the same step; AMOCAS writes nothing where the comparison fails; the line leaves the core's L1.
The model's choice, no rule of the spec, where it rests on log entries 33 and 61. -/
def Obligations.AtomicsAtHome : Prop :=
  ∀ (asz : AmoSize) (d a b : SReg) (o : Ord) (s : State) (pa : Nat), s.issue.inRep = false →
    let n := amoBytes asz
    let w := 8 * n
    s.place (s.rs a) n { r := true, w := true } = .ok (.mem pa 0) → s.overlaps pa n = false →
    s.overlapsLate pa n = false → s.poisoned pa n = false → s.mem.wf = true →
    (o.order = .release ∨ o.order = .both → s.releasable (o.scope != .core) = true) →
    let old : BitVec w := .ofNat w (s.mem.value pa n)
    let v : BitVec w := .ofNat w (s.rs b).toNat
    let does (i : Instr) (new : BitVec w) (ext : Word) : Prop :=
      ∃ t, Gives i s t ∧ t.mem.value pa n = new.toNat ∧ SameOutside s t pa n ∧ t.fr = past s (s.fr.setS d ext) ∧
        (∀ l ∈ t.co.l1, l.line ≠ pa / 32) ∧ t.msgs = s.msgs
    let signed := old.signExtend 64
    let unsigned := old.setWidth 64
    does (.amoadd asz d a b o) (old + v) signed ∧
    does (.amoand asz d a b o) (old &&& v) signed ∧
    does (.amoor asz d a b o) (old ||| v) signed ∧
    does (.amoxor asz d a b o) (old ^^^ v) signed ∧
    does (.amomin asz d a b o) (if old.toInt < v.toInt then old else v) signed ∧
    does (.amomax asz d a b o) (if old.toInt < v.toInt then v else old) signed ∧
    does (.amominn asz d a b o) (if old.toNat < v.toNat then old else v) unsigned ∧
    does (.amomaxn asz d a b o) (if old.toNat < v.toNat then v else old) unsigned ∧
    does (.amoswp asz d a b o) v signed ∧
    does (.amocas asz d a b o) (if old = .ofNat w (s.rs d).toNat then v else old) signed

/-- R241, R246, R261, R263: a FENCE whose RS finds URS 0, or without RS, retires and leaves a mark for the later loads and one for the
later stores that its kinds name; of the marks those stay that still have an access to wait for, and where none holds later
loads, the L1 is invalidated for a FENCE at scope quad or wider that orders them; line operations are posted with a journal
entry; CPIN and CUNPIN answer with their statuses. -/
def Sys2Proof.Claims.FenceLinesAndPins : Prop :=
  ∀ (d a : SReg) (o : Ord) (rs : Bool) (scope : Scope) (kinds : BitVec 4) (s : State), s.issue.inRep = false →
    let ea := s.rs a
    let me := s.fr.handle.toNat
    (rs = false ∨ s.fr.urs = 0 → ∃ t, Gives (.fence rs scope kinds) s t ∧ t.mem = s.mem ∧ t.msgs = s.msgs ∧
      t.fr = past s { s.fr with fenceLoads := t.fr.fenceLoads, fenceStores := t.fr.fenceStores,
                                fenceClear := t.fr.fenceClear } ∧
      (let mark (i j : Nat) : List FenceMark :=
        if kinds.getLsbD i || kinds.getLsbD j then
          [{ stamp := s.stamps, wide := scope != .core, loads := kinds.getLsbD i, stores := kinds.getLsbD j }] else []
       t.fr.fenceLoads = (s.fr.fenceLoads ++ mark 0 2).filter (s.markHolds s.cur) ∧
       t.fr.fenceStores = (s.fr.fenceStores ++ mark 1 3).filter (s.markHolds s.cur)) ∧
      (scope ≠ .core → kinds.getLsbD 0 = true ∨ kinds.getLsbD 2 = true → t.fr.fenceLoads = [] → t.co.l1 = [])) ∧
    (rs = true → s.fr.urs ≠ 0 → Gives (.fence rs scope kinds) s s) ∧
    (∀ (pa : Nat) (i : Fin 16), s.fr.freeEntry = some i → s.overlapsLate (pa / 256 * 256) 256 = false →
      let posts (x : Instr) (fn : BitVec 2) : Prop := ∃ t m, Gives x s t ∧ t.msgs = s.msgs ++ [.posted m] ∧
        m.kind = 2 ∧ m.sub = fn ∧ m.home = pa ∧ m.entry = i.val ∧ t.mem = s.mem ∧
        t.fr = past s { s.fr with journal := t.fr.journal } ∧ t.fr.journal[i].busy = true
      (s.linePlace ea { r := true } true = .ok (.mem pa 0) → posts (.cclean a o) 0 ∧ posts (.cinv a o) 1) ∧
      (s.linePlace ea { w := true } true = .ok (.mem pa 0) → posts (.cdisc a o) 2)) ∧
    (∀ pa, s.linePlace ea { r := true } = .ok (.mem pa 0) →
      let lines := (s.looked ea 1).lines
      let charged := (lines.filter fun l => l.pin == some me).length
      let inSet := (lines.filter fun l => l.pin.isSome && sameSet l.line (pa / 256)).length
      let pin := (findLine lines (pa / 256)).bind (·.pin)
      let quota := (s.part s.fr.part.toNat).residency.toNat
      let answers (i : Instr) (w : Word) : Prop := ∃ t, Gives i s t ∧ t.fr = past s (s.fr.setS d w) ∧ t.mem = s.mem
      (quota ≤ charged → answers (.cpin d a) 2) ∧
      (charged < quota → pin = none → (s.sliceAt (sliceOfPA pa)).ways - 2 ≤ inSet → answers (.cpin d a) 1) ∧
      (charged < quota → pin = none → inSet < (s.sliceAt (sliceOfPA pa)).ways - 2 →
        ∃ t, Gives (.cpin d a) s t ∧ t.fr = past s (s.fr.setS d 0) ∧ t.mem = s.mem ∧
          (findLine t.lines (pa / 256)).bind (·.pin) = some me) ∧
      (charged < quota → pin.isSome = true → answers (.cpin d a) 0) ∧
      (pin = some me → answers (.cunpin d a) 0) ∧ (pin ≠ some me → answers (.cunpin d a) 3))

/-- R265 to R267: GADDR on a record that passes its checks gives the owner's rank and the element's address, or all ones
and zero for a coordinate outside its extent; a bad record is a LAYOUT trap naming the first failing field; MKGA builds
a region-1 address or the address that no access accepts. -/
def Sys2Proof.Claims.AddressInstructions : Prop :=
  ∀ (d a b : SReg) (v : VReg) (s : State), s.issue.inRep = false →
    let l := (s.rs a).toNat
    let r := s.mem.value (localKey s.here l) 96
    let c : List Nat := (List.range (recRank r)).map fun i => elem .n32 (s.fr.getV v) i
    let two (x y : Word) : State := s.putFr (past s ((s.fr.setS d x).setS (d + 1) y))
    (s.padFault l 96 32 = none →
      (∀ bit, recFault r = some bit → Gives (.gaddr d a v) s (s.trap 9 (.ofNat 64 (l % 2 ^ 19 + bit * 2 ^ 32)))) ∧
      (recFault r = none → (∃ i, i < recRank r ∧ recExt r i ≤ c.getD i 0) →
        Gives (.gaddr d a v) s (two 0xFFFFFFFFFFFFFFFF#64 0)) ∧
      (recFault r = none → (∀ i, i < recRank r → c.getD i 0 < recExt r i) →
        let p := recPlace r c
        Gives (.gaddr d a v) s (two (.ofNat 64 (p.1 + p.2.2 * 2 ^ 32)) (.ofNat 64 (recBase r) + .ofInt 64 p.2.1)))) ∧
    (∀ cause detail, s.padFault l 96 32 = some (cause, detail) → Gives (.gaddr d a v) s (s.trap cause (s.rs a) detail)) ∧
    (let w := s.rs a
     let off := (s.rs b).toNat
     let x := bitsOf w.toNat 4 0
     let y := bitsOf w.toNat 12 8
     let dev := bitsOf w.toNat 35 18
     let fits := w &&& 0xFFFFFFF00000E0E0#64 = 0 ∧ off < 2 ^ 19 ∧ x ≤ 23 ∧ y ≤ 23 ∧ ¬(131072 ≤ dev ∧ dev ≤ 0x3FFFE)
     (fits → Gives (.mkga d a b) s (scalarResult s d (.ofNat 64
        (dev * 2 ^ 46 + 2 ^ 42 + bitsOf w.toNat 17 16 * 2 ^ 40 + y * 2 ^ 35 + x * 2 ^ 30 + off)))) ∧
     (¬fits → Gives (.mkga d a b) s (scalarResult s d 0xFFFFFFFFFFFFFFFF#64)))

/-- R225, R241, R243, R261 to R267: fences, line operations and pins; addresses made and looked up.
The model's choice, no rule of the spec, where it rests on log entries 16, 62, 73, 75, 103 and 126. -/
def Obligations.FencesLinesAndAddresses : Prop :=
  FenceLinesAndPins ∧ AddressInstructions

/-! ### Tapered formats -/

/-- R58 to R60: what a code of a tapered format stands for, by the length L of the run at the top of its magnitude M, and the code
that a value is converted to: beyond the largest magnitude, at or below half the smallest, between, and else the nearest, measured
linearly, with the even M at a midpoint. Distances are in units of 2^E. Conversions to and from T8 and T6 go by these; every code
but NaR is exact in every IEEE format, goes to an integer format as an IEEE value does, and NaR is invalid. -/
def Obligations.TaperedConversions : Prop :=
  ∀ w ∈ [(Fmt.t8, 8), (Fmt.t6, 6)],
    let n := w.2
    let m := n - 1
    let big := 2 ^ m - 1
    let val (c : Nat) (E : Int) : Int := match taperedDecode n c with
      | some (.fin neg mant exp) => finAt neg mant exp E
      | _ => 0
    taperedDecode n 0 = some (.fin false 0 0) ∧ taperedDecode n (2 ^ m) = none ∧
    (∀ (M L : Nat) (one neg : Bool), 0 < M → M < 2 ^ m → 0 < L → L ≤ m → (∀ j, j < L → M.testBit (m - 1 - j) = one) →
      (L < m → M.testBit (m - 1 - L) ≠ one) →
      let k : Int := if one then (L : Int) - 1 else -(L : Int)
      let left := m - L - 1
      let e : Nat := if left = 0 then 0 else (M.testBit (left - 1)).toNat
      let F := left - 1
      ∃ v, taperedDecode n (M + if neg then 2 ^ m else 0) = some v ∧ v.isNeg = neg ∧
        v.eq (.fin neg (2 ^ F + M % 2 ^ F) (2 * k + (e : Int) - (F : Int))) = true) ∧
    (∀ (b : Bool) (exp : Int), taperedRound n (.nan b) = (2 ^ m, flagNV) ∧ taperedRound n (.inf b) = (2 ^ m, flagNV) ∧
      taperedRound n (.fin b 0 exp) = (0, 0)) ∧
    (∀ (neg : Bool) (mant : Nat) (exp E : Int), 0 < mant → E ≤ exp → E ≤ -20 →
      let x := finAt false mant exp E
      let r := taperedRound n (.fin neg mant exp)
      let sign := if neg then 2 ^ m else 0
      (val big E < x → r = (big + sign, flagOF ||| flagNX)) ∧
      (2 * x ≤ val 1 E → r = (0, flagUF ||| flagNX)) ∧
      (val 1 E < 2 * x → x < val 1 E → r = (1 + sign, flagUF ||| flagNX)) ∧
      (val 1 E ≤ x → x ≤ val big E → ∃ c, 0 < c ∧ c ≤ big ∧ r = (c + sign, if val c E = x then 0 else flagNX) ∧
        ∀ c', 0 < c' → c' ≤ big → c' ≠ c → (x - val c E).natAbs < (x - val c' E).natAbs ∨
          ((x - val c E).natAbs = (x - val c' E).natAbs ∧ c % 2 = 0))) ∧
    (∀ (f : Fmt) (md : Mode) (x : Nat),
      (∀ ff, fmtFloat f = some ff → convert f w.1 md x = taperedRound n (ff.decode md.fz x)) ∧
      (fmtFloat f = none → fmtTaper f = none → convert f w.1 md x = taperedRound n (numOfInt (intValue f x)) ∧
        convert w.1 f md (2 ^ m) = (0, flagNV) ∧
        (x < 2 ^ n → x ≠ 2 ^ m → ∃ v, taperedDecode n x = some v ∧ convert w.1 f md x = numToInt f md v)) ∧
      (∀ ff, fmtFloat f = some ff → convert w.1 f md (2 ^ m) = (ff.nanBits, flagNV) ∧
        (x < 2 ^ n → x ≠ 2 ^ m → ∃ v, taperedDecode n x = some v ∧
          (ff.decode false (convert w.1 f md x).1).eq v = true ∧ (convert w.1 f md x).2 = 0))) ∧
    (∀ (md : Mode) (c : Nat), c < 64 → c ≠ 32 → ∃ v, taperedDecode 6 c = some v ∧
      (∃ u, taperedDecode 8 (convert .t6 .t8 md c).1 = some u ∧ u.eq v = true) ∧ (convert .t6 .t8 md c).2 = 0) ∧
    (∀ (md : Mode) (c : Nat), c < 256 → c ≠ 128 →
      ∃ v, taperedDecode 8 c = some v ∧ convert .t8 .t6 md c = taperedRound 6 v) ∧
    (∀ md : Mode, convert .t8 .t6 md 128 = (32, flagNV) ∧ convert .t6 .t8 md 32 = (128, flagNV))
/-! ### Pages 5 and 6: objects -/

/-- R165 to R169, R179, R186, R247, R343: a page-5 or page-6 request that passes its checks, with nothing of its context or of its
core's stores outstanding, parks the frame and reaches the engine of the cell's home slice, each instruction as its own request,
or leaves for the device that has the cell; the first failing check of R166 is a precise trap; what must wait for R247 stays, as does
a destruction while its cell's pushes or settle adds are not complete (R196). While the function that keeps the objects is not
READY a request is answered BUSY at once (R364; the model's choice, log entry 122).
TLKACQ beyond 16 held locks is answered LOCKLIMIT by the core; VCCHK copies VCNOT; CNTADD.P is posted. -/
def Sys2Proof.Claims.ObjectRequestsReachEngines : Prop :=
  ∀ (d a b : SReg) (v : VReg) (s : State),
    let x := s.rs a
    let w := s.rs b
    let sends (i : Instr) (al : Nat) (may : CellRights) (rk : ReplyKind) (vd : VReg) (op : ObjOp) : Prop :=
      let u := s.looked x al
      (∀ c, s.cellPlace x al may = .error c → Gives i s (u.trap c x)) ∧
      (∀ key, s.cellPlace x al may = .ok (.here key) → s.dev.ready.getLsbD 3 = false → d ≠ 0 → u.issue.inRep = false →
        Gives i s (scalarResult u d 7)) ∧
      (∀ p, s.cellPlace x al may = .ok p → s.objectsBusy p = false → u.releasable true = false → Gives i s u) ∧
      (∀ key, s.cellPlace x al may = .ok (.here key) → s.dev.ready.getLsbD 3 = true → u.releasable true = true →
        (if op = .destroy then u.destroyHeld (u.cellOf key) else false) = false → u.replayOn = false →
        Gives i s ((u.parkFrame (.request (cellSlice key) (u.cellAddr key) (op == .cvWait)) rk d vd).request
          { who := u.me, rk := rk, d := d, vd := vd, addr := x } key op)) ∧
      (∀ key, op = .destroy → s.cellPlace x al may = .ok (.here key) → s.dev.ready.getLsbD 3 = true →
        u.destroyHeld (u.cellOf key) = true → Gives i s u) ∧
      (s.cellPlace x al may = .ok .away → u.releasable true = true → ∃ t slice, Gives i s t ∧
        t = ((u.fresh 8).2.parkFrame (.request slice x (op == .cvWait)) rk d vd).sendOp u.me x op
          (.object { who := u.me, kind := rk, d := d, vd := vd, addr := x, parks := op.parks }))
    let plain : CellRights := {}
    let jobs : CellRights := { jobQueue := true }
    let checks : CellRights := { machineCheck := true }
    let both : CellRights := { jobQueue := true, machineCheck := true }
    sends (.odestroy d a) 32 plain .plain 0 .destroy ∧
    sends (.cntadd d a b) 32 plain .withValue 0 (.cntAdd w 0) ∧
    sends (.cntwait d a b) 32 plain .withValue 0 (.cntWait w false) ∧
    sends (.cntwaitNw d a b) 32 plain .withValue 0 (.cntWait w true) ∧
    sends (.bararr d a) 32 plain .withValue 0 (.arrive false) ∧
    sends (.barwait d a b) 32 plain .withValue 0 (.barWait (w.setWidth 32)) ∧
    sends (.baraw d a) 32 plain .withValue 0 (.arrive true) ∧
    sends (.baradj d a b) 32 plain .withValue 0 (.barAdj w) ∧
    (s.fr.locks.length < 16 → sends (.tlkacq d a) 32 plain .withValue 0 (.acquire false) ∧
      sends (.tlkacqNw d a) 32 plain .withValue 0 (.acquire true)) ∧
    let looked := s.looked x 32
    (16 ≤ s.fr.locks.length → d ≠ 0 → looked.issue.inRep = false → ∀ p, s.cellPlace x 32 plain = .ok p →
      Gives (.tlkacq d a) s (scalarResult looked d 10) ∧ Gives (.tlkacqNw d a) s (scalarResult looked d 10)) ∧
    sends (.tlkrel d a) 32 plain .plain 0 .release ∧
    sends (.cvwait d a) 32 plain .plain 0 .cvWait ∧
    sends (.cvsig d a) 32 plain .withValue 0 .signal ∧
    sends (.cvbc d a) 32 plain .withValue 0 .broadcast ∧
    (let at_ := w.toNat / 32 * 32
     (s.padFault at_ (cellSize (w.toNat % 8)) 1 = none →
       sends (.oinit d a b) 32 plain .plain 0 (.init (if w.toNat / 8 % 4 = 0 then w.toNat % 8 else 0)
        (s.mem.read (localKey s.here at_) (cellSize (w.toNat % 8))) s.fr.asid)) ∧
     (∀ p c det, s.cellPlace x 32 plain = .ok p → s.padFault at_ (cellSize (w.toNat % 8)) 1 = some (c, det) →
       Gives (.oinit d a b) s (looked.trap c (.ofNat 64 at_) det))) ∧
    sends (.bqpush d a v) 32 jobs .withValue 0 (.push false ((s.fr.getV v).toList.take 64)) ∧
    sends (.bqpushNw d a v) 32 jobs .withValue 0 (.push true ((s.fr.getV v).toList.take 64)) ∧
    sends (.bqpop d a v) 32 checks .pop v (.pop false) ∧ sends (.bqpopNw d a v) 32 checks .pop v (.pop true) ∧
    sends (.oquery d a v) 32 both .query v .query ∧
    sends (.vcpub d a) 64 plain .withValue 0 .pub ∧ sends (.vcfin d a) 64 plain .withValue 0 .fin ∧
    sends (.vcrsv d a) 64 plain .withValue 0 .rsv ∧ sends (.vcstop d a) 64 plain .withValue 0 .stop ∧
    sends (.vcsub d a b) 64 plain .withValue 0 (.sub w) ∧ sends (.vcack d a b) 64 plain .withValue 0 (.ack w) ∧
    sends (.vcunsub d a b) 64 plain .withValue 0 (.unsub w) ∧
    (∀ c, s.cellPlace x 32 plain = .error c →
      ∀ i ∈ [Instr.oinit d a b, .tlkacq d a, .tlkacqNw d a, .coll d a b], Gives i s (looked.trap c x)) ∧
    (s.issue.inRep = false → Gives (.vcchk d) s (scalarResult s d s.fr.vcnot)) ∧
    (∀ c, s.cellPlace x 32 { posted := true } = .error c → Gives (.cntaddP a b) s (looked.trap c x)) ∧
    (∀ p, s.cellPlace x 32 { posted := true } = .ok p → s.fr.freeEntry = none → Gives (.cntaddP a b) s looked) ∧
    (∀ (i : Fin 16) (p : CellPlace), s.cellPlace x 32 { posted := true } = .ok p → s.fr.freeEntry = some i →
      s.issue.inRep = false → ∃ t m, Gives (.cntaddP a b) s t ∧ t.msgs = s.msgs ++ [.posted m] ∧ m.kind = 1 ∧ m.addr = x ∧
        m.data = w ∧ m.entry = i.val ∧ m.release = some true ∧ t.mem = s.mem ∧
        t.fr = past s { s.fr with journal := t.fr.journal } ∧
        (match p with | .here key => m.home = key ∧ m.remote = false | .away => m.remote = true))

/-- R130, R167, R134: the frame that a request parks is PARKED with its PC past the group, no register written; the core
has no issuing frame and a parked owner gives up the hold on the matrix bank. -/
def Sys2Proof.Claims.ParkingWritesNoRegister : Prop :=
  ∀ (s : State) (on : ParkKind) (rk : ReplyKind) (d : SReg) (vd : VReg),
    let t := s.parkFrame on rk d vd
    t.fr = { s.fr with status := .parked, parkedOn := on, parkPc := s.fr.pc, parkLen := s.issue.len, parkD := d,
                       parkVd := vd, parkKind := rk, pc := s.nextPc } ∧
    t.co.issuing = none ∧ (s.co.owner = some (.ofNat 2 s.cur) → t.co.hold = false) ∧
    (∀ n, n ≠ s.cur → t.frameAt n = s.frameAt n) ∧ t.msgs = s.msgs ∧ t.waits = s.waits

/-- R130, R165 to R169: object requests reach their engines, and the frames that made them park.
The model's choice, no rule of the spec, where it rests on log entries 32, 33, 88, 94, 122 and 126. -/
def Obligations.ObjectRequestsPark : Prop :=
  ObjectRequestsReachEngines ∧ ParkingWritesNoRegister

/-- R166, R170 to R174, R179, R181, R196: Engine.Step on counters, ticket locks and queues: the value before an add and what is
stored, WOULDBLOCK for a wait that does not wait, parking at the tail of the list, tickets in order, NOTHOLDER, FIFO
slots; what wakes the counter's waiters, and what a push and a parked pop, a pop and a parked push hand over; what OINIT makes,
OQUERY reads and ODESTROY frees. A lock or condition request of an agent on its own behalf is INVALID (R159); a request on another
type of cell is TYPE, on a poisoned one MCHECK, and changes nothing. -/
def Sys2Proof.Claims.EngineStepsOfCountersLocksQueues : Prop :=
  ∀ (s : State) (r : Req) (key : Nat) (x : Word) (nw : Bool) (data : List Byte), s.mem.wf = true → s.cellOf key = key →
    s.poisoned key 32 = false → s.poisoned key 64 = false →
    let me := r.who.id
    let room := (s.waits.filter fun e => cellSlice e.cell == cellSlice key).length < 2048
    let parks (op : ObjOp) (kind : WaitKind) (arg : Nat) : Prop := ∃ t, s.engineStep r key op = (t, none) ∧
      t.waitsOf key = s.waitsOf key ++ [r.wait key kind arg []]
    (s.cellTag key = 1 →
      let old := s.mem.value key 8
      let saturates := (s.mem.value (key + 10) 2).testBit 2
      let sum : Int := if saturates then min (max ((old : Int) + x.toInt) 0) (2 ^ 64 - 1)
        else ((old : Int) + x.toInt) % 2 ^ 64
      (s.waitsOf key = [] → ∃ t, s.engineStep r key (.cntAdd x 0) = (t, some { value := old }) ∧
        (t.mem.value key 8 : Int) = sum ∧ SameOutside s t key 8 ∧
        ((s.mem.value (key + 10) 2).testBit 0 = false → t.msgs = s.msgs)) ∧
      (ContextsWait s key → (s.mem.value (key + 10) 2).testBit 0 = false →
        let ready (w : Wait) : Bool := (w.kind == .counter && decide ((w.arg : Int) ≤ sum)) ||
          (w.kind == .counterZero && decide (sum = 0))
        ∃ t, s.engineStep r key (.cntAdd x 0) = (t, some { value := old }) ∧ (t.mem.value key 8 : Int) = sum ∧
          Wakes s t ((s.waitsOf key).filter ready) 0 (fun _ => sum.toNat) ∧
          (t.waitsOf key).map (·.who) = ((s.waitsOf key).filter fun w => !ready w).map (·.who)) ∧
      (x.toNat ≤ old → s.engineStep r key (.cntWait x nw) = (s, some { value := old })) ∧
      (old < x.toNat → s.engineStep r key (.cntWait x true) = (s, some { status := 1, value := old })) ∧
      (old < x.toNat → room → parks (.cntWait x false) .counter x.toNat)) ∧
    (s.cellTag key = 3 →
      let next := s.mem.value key 4
      let holder := s.mem.value (key + 8) 8
      (r.who.internal = true → ∀ op ∈ [ObjOp.acquire nw, .release], s.engineStep r key op = (s, some { status := 9 })) ∧
      (r.who.internal = false → holder = noHolder → (s.mem.value (key + 20) 4).testBit 0 = false → me < 2 ^ 64 →
        ∃ t, s.engineStep r key (.acquire nw) = (t, some { value := next, grant := some (s.cellAddr key) }) ∧
          t.mem.value (key + 8) 8 = me ∧ t.mem.value key 4 = (next + 1) % 2 ^ 32 ∧ t.mem.value (key + 4) 4 = next) ∧
      (r.who.internal = false → holder ≠ noHolder → s.engineStep r key (.acquire true) = (s, some { status := 1, value := next })) ∧
      (r.who.internal = false → holder ≠ noHolder → room → parks (.acquire false) .lock next) ∧
      (r.who.internal = false → holder ≠ me → s.engineStep r key .release = (s, some { status := 8 })) ∧
      (r.who.internal = false → holder = me → s.waitsOf key = [] →
        ∃ t, s.engineStep r key .release = (t, some { unlock := some (s.cellAddr key) }) ∧
          t.mem.value (key + 8) 8 = noHolder ∧ t.mem.value (key + 4) 4 = next ∧ t.msgs = s.msgs) ∧
      (∀ w rest id, r.who.internal = false → holder = me → s.waitsOf key = w :: rest → w.who = .ctx id →
        w.spilled = false → w.arg < 2 ^ 32 → id < 2 ^ 38 → ∃ t m, s.engineStep r key .release = (t, some { unlock := some (s.cellAddr key) }) ∧
          t.mem.value (key + 8) 8 = id ∧ t.mem.value (key + 4) 4 = w.arg ∧ t.msgs = s.msgs ++ [.reply m] ∧
          m.who = w.who ∧ m.status = 0 ∧ m.grant = some (s.cellAddr key))) ∧
    (s.cellTag key = 4 → (s.mem.value (key + 3) 1).testBit 0 = false →
      let c := s.mem.value key 2
      (s.queueOcc key = c → s.engineStep r key (.push true data) = (s, some { status := 1, value := c })) ∧
      (s.queueOcc key = 0 → s.engineStep r key (.pop true) = (s, some { status := 1, value := 0 })) ∧
      (0 < s.queueOcc key → s.waitsOf key = [] → ∃ t, s.engineStep r key (.pop nw) =
          (t, some { value := t.queueOcc key,
                     payload := s.mem.read (s.slotKey key (s.mem.value (key + 4) 4 % c)) (s.slotSize key) }) ∧
        SameOutside s t (key + 4) 4) ∧
      (s.queueOcc key < c → s.waitsOf key = [] → ∃ t, s.engineStep r key (.push nw data) =
          (t, some { value := t.queueOcc key }) ∧
        (∀ z, (z < key + 8 ∨ key + 12 ≤ z) → t.mem.get z = (s.mem.write (s.slotKey key (s.mem.value (key + 8) 4 % c))
          (data.take (s.slotSize key))).get z)) ∧
      (let W := c * (2 ^ 32 / c)
       let pops := s.mem.value (key + 4) 4
       let pushes := s.mem.value (key + 8) 4
       let slot := s.slotKey key (pushes % c)
       let size := s.slotSize key
       0 < c → pops < W → pushes < W → s.queueOcc key ≤ c → slot + size ≤ key ∨ key + 32 ≤ slot →
       (0 < s.queueOcc key → s.waitsOf key = [] → let t := (s.engineStep r key (.pop nw)).1
         t.mem.value (key + 4) 4 = (pops + 1) % W ∧ t.queueOcc key + 1 = s.queueOcc key) ∧
       (s.queueOcc key < c → s.waitsOf key = [] → let t := (s.engineStep r key (.push nw data)).1
         t.mem.value (key + 8) 4 = (pushes + 1) % W ∧ t.queueOcc key = s.queueOcc key + 1) ∧
       (∀ w rest, s.waitsOf key = w :: rest → ContextsWait s key → w.kind = .pop → s.queueOcc key = 0 →
         ∃ t m, s.engineStep r key (.push nw data) = (t, some {}) ∧ t.msgs = s.msgs ++ [.reply m] ∧ m.who = w.who ∧
           m.status = 0 ∧ m.value = 0 ∧ m.payload = data.take size ∧ t.mem.value (key + 4) 4 = (pops + 1) % W ∧
           t.mem.value (key + 8) 4 = (pushes + 1) % W ∧ (t.waitsOf key).map (·.who) = rest.map (·.who)) ∧
       (∀ w rest, s.waitsOf key = w :: rest → ContextsWait s key → w.kind = .push → s.queueOcc key = c →
         w.payload.length = size → ∃ t m, s.engineStep r key (.pop nw) =
           (t, some { value := c, payload := s.mem.read (s.slotKey key (pops % c)) size }) ∧
           t.msgs = s.msgs ++ [.reply m] ∧ m.who = w.who ∧ m.status = 0 ∧ m.value = .ofNat 64 c ∧
           t.mem.read slot size = w.payload ∧ t.mem.value (key + 4) 4 = (pops + 1) % W ∧
           t.mem.value (key + 8) 4 = (pushes + 1) % W ∧ (t.waitsOf key).map (·.who) = rest.map (·.who)))) ∧
    (s.cellTag key = 0 → regionOf key = 0 → key % 64 = 0 → ∀ (ty : Nat) (im : List Byte) (asid : BitVec 16),
      let g (o n : Nat) : Nat := leValue ((im.drop o).take n)
      let at_ (t : State) (fields : List (Nat × Nat × Nat)) : Prop := ∀ f ∈ fields, t.mem.value (key + f.1) f.2.1 = f.2.2
      let makes (fields : List (Nat × Nat × Nat)) : Prop := ∃ t, s.engineStep r key (.init ty im asid) = (t, some {}) ∧
        t.cellTag key = ty ∧ t.creatorAsid key = asid ∧ at_ t fields ∧ SameOutside s t key (cellSize ty)
      (ty = 0 ∨ 7 ≤ ty → s.engineStep r key (.init ty im asid) = (s, some { status := 9 })) ∧
      (ty = 1 → g 10 2 < 8 → g 20 12 = 0 →
        makes [(0, 8, g 0 8), (8, 2, 0), (10, 2, g 10 2 &&& 5), (12, 4, 0), (16, 4, g 16 4), (20, 12, 0)]) ∧
      (ty = 2 → g 0 4 ≠ 0 → g 12 4 < 8 → g 16 8 % 32 = 0 →
        makes [(0, 4, g 0 4), (4, 4, 0), (8, 4, g 8 4), (12, 4, g 12 4 &&& 2), (16, 8, g 16 8), (24, 8, g 24 8)]) ∧
      (ty = 3 → g 24 8 = 0 → makes [(0, 8, 0), (8, 8, noHolder), (16, 16, 0)]) ∧
      (ty = 5 → g 8 8 ≠ 0 → g 8 8 % 32 = 0 → g 16 16 = 0 → makes [(0, 8, 0), (8, 8, g 8 8), (16, 16, 0)]) ∧
      (∀ ps, ty = 4 → 1 ≤ g 0 2 → g 2 1 ≤ 3 → g 16 8 % 65536 = 0 → g 24 8 = 0 →
        s.slotPages asid (g 16 8) ((g 0 2 * (8 * 2 ^ g 2 1) + 65535) / 65536) = some ps →
        (∀ p ∈ ps, tblGet? s.bound p = none) →
        makes [(0, 2, g 0 2), (2, 1, g 2 1), (3, 13, 0), (16, 8, g 16 8), (24, 8, 0)]) ∧
      (ty = 6 → s.tagOf (key / 32 + 1) = 0 → s.cellImage 6 im asid ≠ .error 9 →
        makes [(0, 2, 0), (2, 1, g 2 1 &&& 0x1C), (3, 1, g 3 1), (4, 4, 0), (8, 8, g 8 8), (16, 4, g 16 4), (24, 8, g 24 8),
          (32, 8, g 32 8), (40, 8, g 40 8), (48, 8, noHolder)])) ∧
    (s.cellTag key ≠ 0 → regionOf key = 0 → ∀ ty im asid, 1 ≤ ty → ty ≤ 5 →
      s.engineStep r key (.init ty im asid) = (s, some { status := 7 })) ∧
    (s.cellTag key ≠ 7 → s.engineStep r key .query = (s, some
      { status := s.cellTag key, payload := if s.cellTag key = 0 then [] else s.mem.read key (cellSize (s.cellTag key)) })) ∧
    (regionOf key = 0 → ContextsWait s key →
      let frees : Prop := ∃ t, s.engineStep r key .destroy = (t, some {}) ∧ t.cellTag key = 0 ∧
        t.mem.value key (cellSize (s.cellTag key)) = 0
      (s.cellTag key ∈ [1, 2, 5] → frees ∧ ∀ t a, s.engineStep r key .destroy = (t, a) →
        Wakes s t (s.waitsOf key) 2 (fun _ => 0) ∧ t.waitsOf key = []) ∧
      (s.cellTag key = 3 → (s.mem.value (key + 8) 8 = noHolder → frees) ∧ (s.mem.value (key + 8) 8 ≠ noHolder →
        s.engineStep r key .destroy = (s, some { status := 7 }))) ∧
      (s.cellTag key = 4 → ((s.mem.value (key + 3) 1).testBit 0 = true → frees) ∧
        ((s.mem.value (key + 3) 1).testBit 0 = false → ∃ t, s.engineStep r key .destroy = (t, some {}) ∧
          t.mem.value (key + 3) 1 = 1 ∧ Wakes s t (s.waitsOf key) 2 (fun _ => 0) ∧ t.waitsOf key = [])) ∧
      (s.cellTag key = 6 →
        let idle := (s.mem.value (key + 2) 1).testBit 5 = false ∧ (∀ w ∈ s.waitsOf key, w.kind ≠ .producer) ∧
          s.mem.value (key + 4) 4 = 0
        (idle → frees) ∧ (¬idle → s.engineStep r key .destroy = (s, some { status := 7 })))) ∧
    (∀ op t, op.needs = some t → s.cellTag key ≠ t →
      s.engineStep r key op = (s, some { status := 9, trap := some (7, r.addr) })) ∧
    (∀ (op : ObjOp) (u : State), u.cellOf key = key → op ≠ .destroy → op ≠ .removal →
      u.poisoned key (cellSize (u.cellTag key)) = true → u.engineStep r key op = (u, some { trap := some (0x1F, r.addr) })) ∧
    (∀ (op : ObjOp) (u : State) (k : Nat), u.engineStep r k op = u.engineStep r (u.cellOf k) op)

/-- R175 to R178, R182, R185 to R189: Engine.Step on barriers, conditions and version cells. -/
def Sys2Proof.Claims.EngineStepsOfBarriersAndVersions : Prop :=
  ∀ (s : State) (r : Req) (key : Nat) (x : Word), s.mem.wf = true → s.cellOf key = key → s.poisoned key 32 = false →
    s.poisoned key 64 = false →
    (s.cellTag key = 2 →
      let need := s.mem.value key 4
      let arrived := s.mem.value (key + 4) 4
      let phase := s.mem.value (key + 8) 4
      let flags := s.mem.value (key + 12) 4
      (flags.testBit 0 = true → ∀ w, s.engineStep r key (.arrive w) = (s, some { status := 4, value := phase }) ∧
        s.engineStep r key (.barWait (x.setWidth 32)) = (s, some { status := 4, value := phase })) ∧
      (flags = 0 → arrived + 1 < need → s.waitsOf key = [] → ∃ t, s.engineStep r key (.arrive false) = (t, some { value := phase }) ∧
        t.mem.value (key + 4) 4 = arrived + 1 ∧ SameOutside s t (key + 4) 4) ∧
      (flags = 0 → arrived + 1 = need → s.mem.value (key + 16) 8 = 0 → s.waitsOf key = [] → s.combines = [] → ∀ w,
        ∃ t, s.engineStep r key (.arrive w) = (t, some { value := phase }) ∧ t.mem.value (key + 4) 4 = 0 ∧
          t.mem.value (key + 8) 4 = (phase + 1) % 2 ^ 32) ∧
      (flags = 0 → s.mem.value (key + 16) 8 = 0 → s.combines = [] → ContextsWait s key →
        (∀ w ∈ s.waitsOf key, w.kind = .arrival ∧ w.arg = phase) →
        let completes (t : State) : Prop := t.mem.value (key + 4) 4 = 0 ∧ t.mem.value (key + 8) 4 = (phase + 1) % 2 ^ 32 ∧
          t.mem.value (key + 12) 4 = 0 ∧ Wakes s t (s.waitsOf key) 0 (fun _ => phase) ∧ t.waitsOf key = []
        (arrived + 1 = need → ∀ w, ∃ t, s.engineStep r key (.arrive w) = (t, some { value := phase }) ∧ completes t) ∧
        (1 ≤ (need : Int) + x.toInt → (need : Int) + x.toInt ≤ arrived → ∃ t, s.engineStep r key (.barAdj x) =
          (t, some { value := (need + x.toInt).toNat }) ∧ t.mem.value key 4 = (need + x.toInt).toNat ∧ completes t)) ∧
      (flags = 0 → arrived + 1 < need → r.who.internal = false → (∀ w ∈ s.waitsOf key, ∀ b, w.kind ≠ .deferred b) →
        (s.waits.filter fun e => cellSlice e.cell == cellSlice key).length < 2048 →
        ∃ t, s.engineStep r key (.arrive true) = (t, none) ∧ t.mem.value (key + 4) 4 = arrived + 1 ∧
          t.waitsOf key = s.waitsOf key ++ [r.wait key .arrival phase []]) ∧
      (flags = 0 → (need : Int) + x.toInt < 1 ∨ 2 ^ 32 - 1 < (need : Int) + x.toInt →
        s.engineStep r key (.barAdj x) = (s, some { status := 9, value := need })) ∧
      (flags = 0 → (arrived : Int) < need + x.toInt → 1 ≤ (need : Int) + x.toInt →
        (need : Int) + x.toInt < 2 ^ 32 → ∃ t, s.engineStep r key (.barAdj x) =
          (t, some { value := (need + x.toInt).toNat }) ∧ t.mem.value key 4 = (need + x.toInt).toNat)) ∧
    (s.cellTag key = 5 → r.who.internal = true → s.engineStep r key .cvWait = (s, some { status := 9 })) ∧
    (s.cellTag key = 5 → s.waitsOf key = [] → ∀ op ∈ [ObjOp.signal, .broadcast],
      ∃ t, s.engineStep r key op = (t, some { value := 0 }) ∧ t.msgs = s.msgs ∧
        t.mem.value key 4 = (s.mem.value key 4 + 1) % 2 ^ 32) ∧
    (s.cellTag key = 5 →
      let lock : Word := .ofNat 64 (s.mem.value (key + 8) 8)
      let asid := s.creatorAsid key
      let moved (w : Wait) : Msg := .cvAcquire key lock asid { w with lock := s.outward lock }
      (r.who.internal = false → (s.waits.filter fun e => cellSlice e.cell == cellSlice key).length < 2048 →
        ∃ t, s.engineStep r key .cvWait = (t, none) ∧ t.waitsOf key = s.waitsOf key ++ [r.wait key .condition 0 []] ∧
          t.msgs = s.msgs ++ [.cvRelease key lock asid r.who.id]) ∧
      (ContextsWait s key →
        (∀ w rest, s.waitsOf key = w :: rest → ∃ t, s.engineStep r key .signal = (t, some { value := 1 }) ∧
          t.msgs = s.msgs ++ [moved w] ∧ (t.waitsOf key).map (·.who) = rest.map (·.who) ∧
          t.mem.value key 4 = (s.mem.value key 4 + 1) % 2 ^ 32) ∧
        ∃ t, s.engineStep r key .broadcast = (t, some { value := (s.waitsOf key).length }) ∧
          t.msgs = s.msgs ++ (s.waitsOf key).map moved ∧ t.waitsOf key = [])) ∧
    (s.cellTag key = 6 →
      let v := s.mem.value key 2
      let f := s.mem.value (key + 2) 1
      let subs := s.mem.value (key + 3) 1
      let depth := f / 8 % 4 + 1
      let acks (b : Nat) : Nat := s.mem.value (key + 4 + b) 1
      (f.testBit 0 = true → ∀ op ∈ [ObjOp.pub, .fin, .rsv], s.engineStep r key op = (s, some { status := 9 })) ∧
      (f.testBit 0 = false → f.testBit 1 = true →
        s.engineStep r key .rsv = (s, some { status := 6, value := v })) ∧
      (f &&& 0x23 = 0 → v < 65535 → acks (v % depth) = 0 → s.waitsOf key = [] →
        ∃ t, s.engineStep r key .rsv =
          (t, some { value := (s.mem.value (key + 8) 8 + v % depth * s.mem.value (key + 16) 4) % 2 ^ 64 }) ∧
          t.mem.value (key + 2) 1 = f ||| 0x20) ∧
      (f &&& 0x27 = 0x20 → v < 65535 → ∃ t, s.engineStep r key .pub = (t, some { value := v + 1 }) ∧
        t.mem.value key 2 = v + 1 ∧ t.mem.value (key + 2) 1 = f &&& 0xDF ∧
        t.mem.value (key + 4 + v % depth) 1 = subs ∧ t.msgs = s.msgs ++ [.notice key (.ofNat 16 (v + 1)) false false]) ∧
      (f &&& 0x20 = 0 → f &&& 2 = 0 → s.engineStep r key .pub = (s, some { status := 9 })) ∧
      (v = 0 → s.engineStep r key .fin = (s, some { status := 9 })) ∧
      (f &&& 3 ≠ 0 → s.engineStep r key .stop = (s, some { value := v })) ∧
      (f &&& 3 = 0 → s.waitsOf key = [] → r.who.id < 2 ^ 64 → ∃ t, s.engineStep r key .stop =
          (t, some { value := v }) ∧ t.mem.value (key + 2) 1 = f ||| 2 ∧ t.mem.value (key + 48) 8 = r.who.id ∧
        t.msgs = s.msgs ++ [.notice key (.ofNat 16 v) true false]) ∧
      (f.testBit 0 = false → subs < 255 → ∃ t, s.engineStep r key (.sub 0) =
          (t, some { value := v, watch := some (.set (s.cellAddr key) (.ofNat 16 v) (f.testBit 1)) }) ∧
        t.mem.value (key + 3) 1 = subs + 1 ∧ SameOutside s t (key + 3) 1) ∧
      (∀ u, u < 2 ^ 16 → (u < 1 ∨ v < u ∨ u + depth ≤ v) →
        s.engineStep r key (.ack (.ofNat 64 u)) = (s, some { status := 9 })) ∧
      (let buf (u : Nat) : Nat := (u - 1) % depth
       let settles := s.mem.value (key + 24) 8
       let settle : Msg := .settle key (.ofNat 64 settles) (s.creatorAsid key)
       let current (u : Nat) : Prop := 1 ≤ u ∧ u ≤ v ∧ v < u + depth
       (∀ u, current u → acks (buf u) ≠ 0 → s.waitsOf key = [] →
         ∃ t, s.engineStep r key (.ack (.ofNat 64 u)) =
             (t, some { value := v, watch := some (.raise (s.cellAddr key) (.ofNat 16 u)) }) ∧
           t.mem.value (key + 4 + buf u) 1 = acks (buf u) - 1 ∧ SameOutside s t (key + 4 + buf u) 1 ∧
           t.msgs = s.msgs ++ if f.testBit 0 ∧ buf u = buf v ∧ acks (buf u) = 1 ∧ settles ≠ 0 then [settle] else []) ∧
       (∀ u w, current u → acks (buf u) = 1 → buf u = v % depth → f.testBit 0 = false → s.waitsOf key = [w] →
         ContextsWait s key → w.kind = .producer → ∃ t a, s.engineStep r key (.ack (.ofNat 64 u)) = (t, some a) ∧
           a.status = 0 ∧ t.waitsOf key = [] ∧ t.mem.value (key + 2) 1 = f ||| 0x20 ∧
           Wakes s t [w] 0 (fun _ => (s.mem.value (key + 8) 8 + v % depth * s.mem.value (key + 16) 4) % 2 ^ 64)) ∧
       (∀ last, last ≤ v → 0 < subs → s.waitsOf key = [] → ∃ t, s.engineStep r key (.unsub (.ofNat 64 last)) =
           (t, some { value := subs - 1, watch := some (.clear (s.cellAddr key)) }) ∧ t.mem.value (key + 3) 1 = subs - 1 ∧
         (∀ u, current u → last < u → t.mem.value (key + 4 + buf u) 1 = acks (buf u) - 1) ∧
         (∀ b, b < 4 → (∀ u, current u → last < u → buf u ≠ b) → t.mem.value (key + 4 + b) 1 = acks b) ∧
         (f.testBit 0 = false → t.msgs = s.msgs)) ∧
       (0 < v → f.testBit 0 = false → s.waitsOf key = [] → ∃ t, s.engineStep r key .fin = (t, some { value := v }) ∧
         t.mem.value (key + 2) 1 = (f &&& 0xDF ||| 1) ∧ SameOutside s t (key + 2) 1 ∧
         t.msgs = s.msgs ++ .notice key (.ofNat 16 v) (f.testBit 1) true ::
           if acks (buf v) = 0 ∧ settles ≠ 0 then [settle] else []) ∧
       (f &&& 0x27 = 0x24 → v < 65535 → ∃ t, s.engineStep r key .pub = (t, some { value := v + 1 }) ∧
         t.msgs = s.msgs ++ [.notice key (.ofNat 16 (v + 1)) false false,
           .refire key (v + 1) (.ofNat 64 (s.mem.value (key + 32) 8)) (.ofNat 64 (s.mem.value (key + 40) 8))
             (s.creatorAsid key) false []]) ∧
       (f.testBit 0 = false → subs < 255 →
         (f.testBit 5 = true → depth = 1 → s.engineStep r key (.sub 1) = (s, some { status := 7 })) ∧
         (¬(f.testBit 5 = true ∧ depth = 1) → 1 ≤ v → acks (buf v) < 255 → ∃ t a, s.engineStep r key (.sub 1) = (t, some a) ∧
           a.status = 0 ∧ a.value = v ∧ t.mem.value (key + 3) 1 = subs + 1 ∧
           t.mem.value (key + 4 + buf v) 1 = acks (buf v) + 1))))

/-- R157, R166, R173 to R189: Engine.Step on every type of cell.
The model's choice, no rule of the spec, where it rests on log entries 33, 88, 89, 90, 91, 93 and 98. -/
def Obligations.EngineSteps : Prop :=
  EngineStepsOfCountersLocksQueues ∧ EngineStepsOfBarriersAndVersions

/-- R164, R166 to R169, R179, R181, R191: the reply to a parked frame's request writes status and value to S[d] and S[d+1], or nothing
with d = 0, and a popped or queried payload to V[b], as its kind has it; lists a granted lock, takes a released one off the list, sets
or clears the watch, and makes the frame READY with the core's L1 empty; a status that is neither OK nor WOULDBLOCK raises OBJSTAT
when d = 0, a refusal its trap at the request; the other messages between engines, contexts and the distributor are delivered each to
its own receiver.
The model's choice, no rule of the spec, where it rests on log entries 12, 20 and 32. -/
def Obligations.MessagesReachTheirReceivers : Prop :=
  ∀ (s : State) (rest : List Msg), s.dev.trctl.getLsbD 2 = false →
    let without : State := { s with msgs := rest }
    (∀ (r : Reply) (id : Nat), s.msgs = .reply r :: rest → r.who = .ctx id →
      let c := s.ctxAt (id % 2 ^ 20)
      let f := s.frameAt c.frame
      (c.state = .resident → f.status = .parked → f.handle.toNat = id % 2 ^ 20 →
        (r.trap = none → r.d ≠ 0 ∨ r.status = 0 ∨ r.status = 1 ∨ r.kind = .query ∨ r.kind = .raw →
          ∃ t, Gives (.objectReply 0) s t ∧ let g := t.frameAt c.frame
            g.status = .ready ∧ g.parkedOn = .none ∧ (f.parkedOn ≠ .slice → (t.coreAt (c.frame / 4)).l1 = []) ∧
            (r.kind = .plain ∨ r.kind = .query → ∀ k, g.getS k = (f.setS r.d (r.status.setWidth 64)).getS k) ∧
            (r.kind = .withValue ∨ r.kind = .pop → ∀ k, g.getS k = (twoSet f r.d (r.status.setWidth 64) r.value).getS k) ∧
            (r.kind = .raw → r.payload = [] → ∀ k, g.getS k = (f.setS r.d r.value).getS k) ∧
            (r.kind = .raw → r.payload ≠ [] →
              ∀ k, g.getS k = (twoSet f r.d r.value (.ofNat 64 (leValue r.payload))).getS k) ∧
            (∀ v, v ≠ r.vd ∨ (r.kind ≠ .query ∧ (r.kind ≠ .pop ∨ r.status ≠ 0)) → g.getV v = f.getV v) ∧
            (r.kind = .query → ∀ k, (g.getV r.vd).toList.getD k 0 = r.payload.getD k 0 ∨ 256 ≤ k) ∧
            (r.kind = .pop → r.status = 0 → ∀ k, k < 256 → (g.getV r.vd).toList.getD k 0 =
              (if k < r.payload.length then r.payload.getD k 0 else (f.getV r.vd).toList.getD k 0)) ∧
            (r.grant = none → r.unlock = none → g.locks = f.locks) ∧
            (∀ l, r.grant = some l → g.locks = if l ∈ f.locks then f.locks else f.locks ++ [l]) ∧
            (∀ l, r.grant = none → r.unlock = some l → ∀ x, x ∈ g.locks ↔ x ∈ f.locks ∧ x ≠ l) ∧
            (r.watch = none → g.watch = f.watch) ∧
            (∀ x v b, r.watch = some (.set x v b) →
              g.watch = { cell := some x, ver := v, latest := v, stop := b, final := false }) ∧
            ∀ x, r.watch = some (.clear x) → f.watch.cell = some x → g.watch = {}) ∧
        (r.trap = none → r.d = 0 → r.status ≠ 0 → r.status ≠ 1 → r.kind ≠ .query → r.kind ≠ .raw → f.noHandler = false →
          f.parkLen ≤ 5 → ∃ t, Gives (.objectReply 0) s t ∧ TrapAtPark f (t.frameAt c.frame) 8 r.status.toNat r.cell ∧
            ∀ l, r.grant = some l → l ∈ (t.frameAt c.frame).locks) ∧
        (∀ x v, r.trap = some (x, v) → x ≠ 0x13 → f.noHandler = false → f.parkLen ≤ 5 →
          ∃ t, Gives (.objectReply 0) s t ∧
            TrapAtPark f (t.frameAt c.frame) x.toNat (if x = 0x1F then 1 else 0) v ∧
            (t.frameAt c.frame).s = f.s ∧ (t.frameAt c.frame).v = f.v ∧ (t.frameAt c.frame).locks = f.locks) ∧
        (∀ v, r.trap = some (0x13, v) → ∃ t, Gives (.objectReply 0) s t ∧ t.frameAt c.frame =
          { f with status := .ready, parkedOn := .none, pendFabric := f.pendFabric ++ [(1, v)] })) ∧
      (c.state = .dead ∨ c.state = .free → Gives (.deadContextMessage 0) s
        (match r.grant with | some l => { s with msgs := rest ++ [.abandon l id false] } | none => without)) ∧
      (c.state = .saved → r.trap = none → r.objstat = false → ∃ t, Gives (.wakeSavedContext 0) s t ∧
        (t.ctxAt (id % 2 ^ 20)).state = .runnable ∧ (t.ctxAt (id % 2 ^ 20)).parked = false)) ∧
    (∀ home m, s.msgs = .spilled home m :: rest → Gives (.spillRingWake 0) s { s with msgs := m :: rest }) ∧
    (∀ cell asid x k call sep job, s.msgs = .agentAdd cell asid x k call sep job :: rest → ∀ key,
      without.agentTarget asid cell = .here key → without.cellTag key = 1 → s.dev.ready.getLsbD 3 = true →
      Gives (.agentCntadd 0) s (((without.agentLooked (endpointNode sep) asid cell).crossed (endpointNode sep) (homeNode key) 2 false).objStep
        { who := .drain job } key (.cntAdd x k)).1) ∧
    (∀ cell asid x k call sep job, s.msgs = .agentAdd cell asid x k call sep job :: rest →
      without.agentTarget asid cell = .bad →
      Gives (.agentCntadd 0) s ((without.agentLooked (endpointNode sep) asid cell).machineCheck 5 0 0 cell.toNat 0 0)) ∧
    (∀ child parent asid key, s.msgs = .parentArrival child parent asid [] none :: rest →
      without.agentTarget asid parent = .here key → without.cellTag key = 2 →
      Gives (.parentArrival 0) s
        ((without.agentLooked (homeNode child) asid parent).request { who := .child child, addr := parent } key (.arrive true))) ∧
    (∀ child parent asid data shape key, s.msgs = .parentArrival child parent asid data (some shape) :: rest →
      s.agentTarget asid parent = .here key → s.cellTag key = 2 → s.descPending key = false →
      Gives (.parentArrival 0) s
        ((without.agentLooked (homeNode child) asid parent).request { who := .child child, addr := parent } key (.combine data (some shape)))) ∧
    (∀ child home, s.msgs = .parentWake child 0 [] home :: rest → without.cellTag child = 2 →
      Gives (.parentCompleteWake 0) s (without.objStep { who := .child child } child (.complete 0 [])).1) ∧
    (∀ cell lock asid who key, s.msgs = .cvRelease cell lock asid who :: rest →
      without.agentTarget asid lock = .here key → without.cellTag key = 3 →
      let step := ((without.agentLooked (homeNode cell) asid lock).crossed (homeNode cell) (homeNode key) 2 false).objStep
        { who := .ctx who, addr := lock } key .cvRelease
      (∀ v, step.2 = some v → v.trap = none → v.status = 0 → Gives (.cvLockRelease 0) s step.1) ∧
      (∀ v, step.2 = some v → v.trap = none → v.status = 8 → step.1.cellTag cell = 5 →
        Gives (.cvLockRelease 0) s (step.1.objStep { who := .ctx who } cell (.unreleased 8)).1)) ∧
    (∀ cell lock asid w key, s.msgs = .cvAcquire cell lock asid w :: rest → without.agentTarget asid lock = .here key →
      without.cellTag key = 3 →
      let step := ((without.agentLooked (homeNode cell) asid lock).crossed (homeNode cell) (homeNode key) 2 false).objStep w.req key .moved
      Gives (.cvMovedAcquire 0) s (match step.2 with | some v => step.1.answer w.req v key | none => step.1)) ∧
    (∀ lock who, s.msgs = .abandon lock who false :: rest → without.isLocal lock = true →
      without.cellTag (keyOf lock) = 3 → Gives (.lockAbandon 0) s
        ((without.carried (.ctx who) (keyOf lock) 0 false).objStep { who := .ctx who, addr := lock } (keyOf lock) .abandon).1) ∧
    (∀ h n w, s.msgs = .cleaned h n :: rest → (s.ctxAt h).cleanFor = some w → 1 < (s.ctxAt h).cleanPending →
      ∃ t, Gives (.waiterRemoval 0) s t ∧ (t.ctxAt h).cleanPending = (s.ctxAt h).cleanPending - 1 ∧
        t.msgs = rest) ∧
    (∀ cell counter asid, s.msgs = .settle cell counter asid :: rest →
      Gives (.settleAdd 0) s
        (without.agentCntAdd counter asid 1 0 (sliceEndpoint (cellSlice cell)) (.settle cell))) ∧
    (∀ cell version card queue asid, s.msgs = .refire cell version card queue asid false [] :: rest →
      s.isLocal card = true →
      (without.localCard card asid = none → Gives (.refirePush 0) s { s with msgs := rest ++ [.refireLost cell version] }) ∧
      (∀ bs off, without.localCard card asid = some bs → addrForm queue = true → s.isLocal queue = true →
        keyOf queue = ctlKey off → (jobQueueOf? off).isSome = true → without.cellTag (keyOf queue) = 4 →
        let r : Req := { who := .refire cell version, addr := queue }
        let step := ((without.agentFetched (homeNode cell) { asid := asid, part := 0, user := true, core := none } card 64).carried r.who (keyOf queue) 64 false).objStep r (keyOf queue)
          (.push false (patch bs 40 (leBytes 2 version)))
        Gives (.refirePush 0) s (match step.2 with | some v => step.1.answer r v (keyOf queue) | none => step.1))) ∧
    (∀ cell version, s.msgs = .refireLost cell version :: rest →
      let left := if without.cellTag cell = 6
        then (without.objStep { who := .refire cell version } cell (.discharge version)).1 else without
      Gives (.refireLost 0) s (left.machineCheck 9 (cellSlice cell % 48) (cellSlice cell / 48) cell 0 0)) ∧
    (∀ cell asid version key, s.msgs = .vcack cell asid version :: rest →
      (match asid with | some i => without.agentTarget i cell | none => .here (keyOf cell)) = .here key → without.cellTag key = 6 →
      let u := match asid with | some i => without.agentLooked controlNode i cell | none => without
      Gives (.distributorVcack 0) s
        ((u.carried (.drain 0) key 0 false).objStep { who := .drain 0 } key (.ack (.ofNat 64 version))).1) ∧
    (∀ cell v stop final, s.msgs = .notice cell v stop final :: rest → ∃ t, Gives (.vcNotice 0) s t ∧
      ((∀ j ∈ s.jobs, j.refines = true → j.status ≠ .active) → t.msgs = rest) ∧
      ∀ n f, tblGet? s.frames n = some f →
        (t.frameAt n).watch = (if f.watch.cell = some (s.cellAddr cell) then
          { f.watch with latest := (if f.watch.latest.toNat < v.toNat then v else f.watch.latest),
                         stop := f.watch.stop || stop, final := f.watch.final || final } else f.watch))

/-- R183, R350: OKILL answers INVALID for a number beyond the waiter ids and BUSY for a context that is not DEAD; once
nothing is owed to a DEAD context that holds no lock and has nothing parked, it is cleaned. COLL sends its contribution
to the barrier; a malformed operand is INVALID.
The model's choice, no rule of the spec, where it rests on log entries 34, 36 and 92. -/
def Obligations.KillsAndCollectives : Prop :=
  ∀ (d a b : SReg) (s : State), s.releasable true = true →
    let w := s.rs a
    let u := s.looked w 32
    let id := w.toNat
    let h := id % 2 ^ 20
    let req : Req := { who := .ctx (s.waiterId s.fr.handle), d := d, addr := w }
    let parked := s.parkFrame (.request 0 w false) .withValue d
    (s.fr.inS = false → Gives (.okill d a) s (s.trap 2 s.baseVal)) ∧
    (s.fr.inS = true → 2 ^ 38 ≤ id → Gives (.okill d a) s (parked.deliver req { status := 9 })) ∧
    (s.fr.inS = true → id < 2 ^ 38 → id / 2 ^ 20 = s.devNum → (s.ctxAt h).state ≠ .dead →
      Gives (.okill d a) s (parked.deliver req { status := 7 })) ∧
    (s.fr.inS = true → id < 2 ^ 38 → id / 2 ^ 20 = s.devNum → (s.ctxAt h).state = .dead →
      (s.ctxAt h).cleanFor = none → s.owed id = false → s.fr.handle.toNat ≠ h →
      (∀ f, (s.ctxAt h).image = some f → f.locks = [] ∧ f.parkedOn = .none) →
      ∃ t m, Gives (.okill d a) s t ∧ (t.ctxAt h).cleaned = true ∧ t.msgs = s.msgs ++ [.reply m] ∧ m.status = 0 ∧
        m.who = req.who) ∧
    (let v := (s.rs b).toNat
     let n := 32 * bitsOf v 39 32
     let l := bitsOf v 18 0
     ∀ p, s.cellPlace w 32 {} = .ok p →
      (bitsOf v 31 19 ≠ 0 ∨ bitsOf v 63 40 ≠ 0 → d ≠ 0 → u.issue.inRep = false →
        Gives (.coll d a b) s (scalarResult u d 9)) ∧
      (bitsOf v 31 19 = 0 → bitsOf v 63 40 = 0 → ∀ c det, s.padFault l (max n 1) 32 = some (c, det) →
        Gives (.coll d a b) s (u.trap c (.ofNat 64 l) det)) ∧
      (bitsOf v 31 19 = 0 → bitsOf v 63 40 = 0 → s.padFault l (max n 1) 32 = none → s.objectsBusy p = false →
        u.releasable true = true →
        (∀ key, p = .here key → ∃ t e, Gives (.coll d a b) s t ∧ t.fr.status = .parked ∧
          t.msgs = s.msgs ++ [.combine e none []] ∧ e.cell = key ∧ e.coll = true ∧
          e.payload = s.mem.read (localKey s.here l) n) ∧
        (p = .away → ∃ t slice, Gives (.coll d a b) s t ∧
          t = ((u.fresh 8).2.parkFrame (.request slice w false) .withValue d).sendCombine u.me w
            (u.localRead l n) none
            (.object { who := u.me, kind := .withValue, d := d, addr := w, parks := true }))))
/-! ### Page 7: the copy engine -/

/-- R274, R275, R284, R347, R349: a push that passes its checks puts its commands at the end of the core's FIFO, claims
the tag that it names and answers OK; a full FIFO holds the group; a tag in use is BUSY and a reserved bit INVALID.
TWANY, TWALL, TFFR and TCLR read and clear the ready tags; a wait that is not over parks the frame.
The model's choice, no rule of the spec, where it rests on log entries 37, 38 and 39. -/
def Obligations.CopyPushesAndTags : Prop :=
  ∀ (d a b : SReg) (s : State) (cmds : List Cmd), s.issue.inRep = false →
    let base := (s.rs a).toNat
    let w := (s.rs b).toNat
    let f := s.fr
    let pushes (i : Instr) (kind : BlockKind) : Prop :=
      let n := bitsOf w 12 8 + 1
      let tag := bitsOf w 5 0
      let te := w.testBit 6
      let counter : Word := .ofNat 64 (s.mem.value (localKey s.here base) 8)
      let u := if counter = 0 then s else s.countersLooked [counter]
      let bit : Word := 1 <<< tag
      let f1 := if te then { f with tags := f.tags &&& ~~~bit, tagerr := f.tagerr &&& ~~~bit,
                                    tagsPending := f.tagsPending ||| bit,
                                    tagLines := f.tagLines.filter (·.1 != tag) } else f
      (w < 2 ^ 13 → s.padFault base (32 + 64 * n) 32 = none →
        s.mem.value (localKey s.here (base + 8)) 24 = 0 → (counter = 0 ∨ s.counterFault counter = none) →
        s.checkCommands kind (base + 32) n 0 = (.ok, cmds) →
        (te = true → f.tagsPending.getLsbD tag = true → d ≠ 0 → Gives i s (scalarResult u d 7)) ∧
        ((te = true → f.tagsPending.getLsbD tag = false) → 32 < s.co.fifoUsed + n → Gives i s u) ∧
        ((te = true → f.tagsPending.getLsbD tag = false) → s.co.fifoUsed + n ≤ 32 → ∃ t x, Gives i s t ∧
          t.co.fifo = s.co.fifo ++ [x] ∧ x.cmds = cmds ∧ x.kind = kind ∧ x.counter = counter ∧ x.te = te ∧
          x.tag.toNat = tag ∧ x.ordf = w.testBit 7 ∧ x.started = false ∧ x.next = 0 ∧ x.handle = f.handle ∧
          t.fr = past s (f1.setS d 0) ∧ t.mem = s.mem)) ∧
      (2 ^ 13 ≤ w → d ≠ 0 → Gives i s (scalarResult s d 9)) ∧
      (∀ c det, w < 2 ^ 13 → s.padFault base (32 + 64 * n) 32 = some (c, det) → Gives i s (s.trap c (s.rs a) det))
    let m := s.rs a
    pushes (.cpy d a b) .cpy ∧ pushes (.cpyt d a b) .cpyt ∧ pushes (.cpyl d a b) .cpyl ∧
    (32 ≤ w → d ≠ 0 → Gives (.xfer d a b) s (scalarResult s d 9) ∧ Gives (.xferCh d a b) s (scalarResult s d 9)) ∧
    (w < 32 → s.padFault base (64 * (w % 32 + 1)) 64 = none →
      s.checkTransfers .xfer base (w % 32 + 1) = (.ok, cmds) → s.co.fifoUsed + (w % 32 + 1) ≤ 32 →
      (∃ t xs, Gives (.xfer d a b) s t ∧ t.co.fifo = s.co.fifo ++ xs ∧ xs.map (·.cmds) = cmds.map (fun c => [c]) ∧
        (∀ x ∈ xs, x.kind = .xfer ∧ x.started = false) ∧ t.fr = past s (f.setS d 0) ∧ t.mem = s.mem) ∧
      (∃ t x, Gives (.xferCh d a b) s t ∧ t.co.fifo = s.co.fifo ++ [x] ∧ x.cmds = cmds ∧ x.kind = .xferCh ∧
        t.fr = past s (f.setS d 0) ∧ t.mem = s.mem)) ∧
    (s.padFault base 64 64 = none → s.checkTransfers .mcst base 1 = (.ok, cmds) →
      s.padFault (s.rs b).toNat 64 32 = none →
      let g := s.mem.value (localKey s.here (s.rs b).toNat) 64
      s.groupOk g = true → s.co.fifoUsed + 1 ≤ 32 → ∃ t x, Gives (.mcst d a b) s t ∧
        t.co.fifo = s.co.fifo ++ [x] ∧ x.cmds = cmds.map (fun c => { c with group := g }) ∧ x.kind = .mcst ∧
        t.fr = past s (f.setS d 0) ∧ t.mem = s.mem) ∧
    (f.tags &&& m ≠ 0 ∨ f.tagsPending &&& m = 0 → ∃ t, Gives (.twany d a) s t ∧
      t.fr = past s (f.setS d (f.tags &&& m)) ∧ t.mem = s.mem) ∧
    (f.tags &&& m = 0 → f.tagsPending &&& m ≠ 0 → Gives (.twany d a) s (s.parkFrame (.tagAny m d) .raw d)) ∧
    (f.tagsPending &&& m = 0 → ∃ t, Gives (.twall d a) s t ∧ t.fr = past s (f.setS d (f.tags &&& m)) ∧
      t.mem = s.mem) ∧
    (f.tagsPending &&& m ≠ 0 → Gives (.twall d a) s (s.parkFrame (.tagAll m d) .raw d)) ∧
    (∀ i : Fin 64, (f.tags &&& m).getLsbD i = true → (∀ j : Fin 64, j < i → (f.tags &&& m).getLsbD j = false) →
      ∃ t, Gives (.tffr d a) s t ∧ t.fr = past s (f.setS d (.ofNat 64 i.val)) ∧ t.mem = s.mem) ∧
    (f.tags &&& m = 0 → Gives (.tffr d a) s (scalarResult s d 64)) ∧
    Gives (.tclr a) s (s.putFr (past s { f with tags := f.tags &&& ~~~m, tagerr := f.tagerr &&& ~~~m }))

/-- R272, R277 to R283: a block starts when no earlier one waits to start, fewer than four run and what its frame issued before it
is complete; its command completes when every unit has been moved, an element of CPY or a part of CPYL: the bytes of its source
stand in its destination and no other byte changes. The parts of a linear move cover it, none crossing a granule of its source or of
its destination;
outside the extents a source reads FILL and a destination is clipped. A refused unit makes the command fault there. Past the last
command the block leaves, sets its tag and adds 1 to its counter; a faulted one also sets the error bit and the fault record. A
row write of CPYT reaches its bank.
The model's choice, no rule of the spec, where it rests on log entries 21, 40, 105, 118 and 127. -/
def Obligations.CopyBlocksRunAndComplete : Prop :=
  ∀ (s : State) (c k : Nat) (b : Block), (s.coreAt c).fifo[k]? = some b →
    let others := (s.coreAt c).fifo.filter (·.id != b.id)
    let f := s.frameAt b.frame
    let resident := (s.ctxAt b.handle.toNat).state = .resident ∧ (s.ctxAt b.handle.toNat).frame = b.frame ∧
      f.handle = b.handle ∧ f.status = .ready
    let bit : Word := 1 <<< b.tag.toNat
    let tagged (g : Frame) : Frame := if b.te then
      { g with tags := g.tags ||| bit, tagsPending := g.tagsPending &&& ~~~bit,
               tagLines := (b.tag.toNat, b.lines) :: g.tagLines } else g
    (b.started = false → ((s.coreAt c).fifo.take k).all (·.started) = true →
      ((s.coreAt c).fifo.take k).length < 4 → b.ordf = false → (f.status ≠ .empty → f.handle = b.handle → f.owes b.stamp = false) →
      b.isTransfer = false →
      Gives (.copyBlockStart c k) s (s.putBlock c { b with started := true })) ∧
    (∀ x u b1, b.started = true → b.waiting = false → b.failed = none → b.cmds[b.next]? = some x →
      b.kind = .cpy ∨ b.kind = .cpyl → u.blockById c b.id = some b1 → b1.kind = b.kind → u.copyOut c b.id = false →
      (State.runUnits c b.id x false (unitCount b x) 0 s = (u, none) → b1.held = [] →
        Gives (.copyCommandComplete c k) s (u.putBlock c { b1 with
          next := b1.next + 1, sent := false, pos := 0, moved := [], wrote := [], held := [], tainted := [], checked := [], refusals := [],
          early := false, added := [] })) ∧
      (∀ y cause addr, State.runUnits c b.id x false (unitCount b x) 0 s = (u, some (y, cause, addr)) →
        Gives (.copyCommandComplete c k) s
          (u.failBlock c b.id cause addr y.elem (b1.wrote.any fun e => decide (y.elem ≤ e))))) ∧
    (∀ (u : State) (y : CopyUnit) (j k2 : Nat) (ks : List Nat), u.mem.wf = true → ks ≠ [] → y.six = none → y.src = .keys ks →
      y.dst = .keys ((List.range ks.length).map (k2 + ·)) → b.moved.contains j = false → tblGet? b.held j = none →
      u.remotes = [] →
      (u.moveUnit c b y j false).mem.read k2 ks.length = u.gather ks ∧
        SameOutside u (u.moveUnit c b y j false) k2 ks.length ∧
        (u.blockById c b.id = some b →
          ((u.moveUnit c b y j false).blockById c b.id).map (·.wrote) = some (y.elem :: b.wrote))) ∧
    (∀ (x : Cmd) (l : Nat), b.kind = .cpy →
      (recOutside x.recB (windowCoord x.raw 32 l) = true → (s.unitAt b x l).dst = .clipped) ∧
      (recOutside x.recA (windowCoord x.raw 16 l) = true → (s.unitAt b x l).src = .value (leBytes 8 (fillValue x.recA)))) ∧
    (∀ (src dst : Word) (len l : Nat), l < len → ∃ j, j < linearCount src dst len ∧
      let part := linearPart src dst len j
      part.1 ≤ l ∧ l < part.1 + part.2 ∧ part.1 + part.2 ≤ len ∧
        (src.toNat + part.1) / 32 = (src.toNat + part.1 + part.2 - 1) / 32 ∧
        (dst.toNat + part.1) / 32 = (dst.toNat + part.1 + part.2 - 1) / 32) ∧
    (b.started = true → b.cmds.length ≤ b.next → b.failed = none → b.isTransfer = false → b.orphan = false →
      resident → ∃ t, Gives (.copyBlockComplete c k) s t ∧ (t.coreAt c).fifo = others ∧ t.frameAt b.frame = tagged f ∧
        t.mem = s.mem ∧
        t.msgs = s.msgs ++ (if b.counter = 0 then [] else [.agentAdd b.counter b.asid 1 0 none b.endpoint (b.job.getD 0)])) ∧
    (∀ cause addr, b.failed = some (cause, addr) → b.isTransfer = false → b.orphan = false → resident →
      f.faulta.getLsbD 22 = false → ∃ t, Gives (.copyFault c k) s t ∧ (t.coreAt c).fifo = others ∧
        (t.frameAt b.frame).faulta.getLsbD 22 = true ∧
        (b.te = true → (t.frameAt b.frame).tagerr = f.tagerr ||| bit) ∧
        (t.frameAt b.frame).pendCopy = some addr ∧
        t.msgs = s.msgs ++ (if b.counter = 0 then [] else [.agentAdd b.counter b.asid 1 1 none b.endpoint (b.job.getD 0)])) ∧
    (∀ sl r rest, (s.sliceAt sl).rows = r :: rest → r.core = c → (s.coreAt c).fifo.find? (·.id == r.block) = some b →
      (s.sliceAt sl).rowsTurn = true → s.computeBank sl r.bank b.part = true → ∀ lane v, r.lanes = [(lane, v)] → s.mem.wf = true →
      ∃ t, Gives (.cpytRowWrite sl) s t ∧ (t.sliceAt sl).rows = rest ∧ t.laneBit sl r.bank r.row lane = v ∧
        SameOutside s t (laneKey sl r.bank r.row lane) 1)

/-! ### Page 8: moss mode -/

/-- R286, R291 to R293, R297 to R300: BSPART, BSSTAT and BSABORT park the frame and answer from the slice; an operand that
names no slice is INVALID at the core; BSPART is BUSY, over the QUOTA, below the FLOOR or changes the modes of its mask's banks, those
that enter a mode zero; BSABORT takes the context's queued calls out and stops its running one, at once when suspended, else at
its next row boundary, each with the marked add and cause 4, before the reply that counts them; a well-formed BSCALL enters the queue of its slice; a call starts, issues its
microwords on the command bus, which write no row but those of Z in the banks of its mask, suspends at a row boundary while a row
write waits, and completes with its counter add; a call of an entry that is not valid completes at once with the error mark; so do at
its budget the running call and each queued one, with the sequencer and the compute banks cleared and the callers' ARRFLT records
written, ARRAY pending. Where the control store is not READY no entry is valid (the model's choice, log entry 122).
The model's choice, no rule of the spec, where it rests on log entries 46, 47, 48, 50, 51, 53, 54, 108, 110, 128, 129 and 133. -/
def Obligations.MossCallsRun : Prop :=
  ∀ (d a b : SReg) (imm : Word) (s : State) (sl : Nat), s.issue.inRep = false →
    let addr := s.rs a
    let w := (s.rs b).toNat
    let me := s.waiterId s.fr.handle
    let x := s.sliceAt sl
    let parked (k : ReplyKind) : State := s.parkFrame .slice k d
    (s.sliceAddr? addr = none → Gives (.bsstat d a) s (scalarResult s d 9) ∧
      Gives (.bsabort d a) s (scalarResult s d 9) ∧ (d ≠ 0 → Gives (.bspart d a b) s (scalarResult s d 9))) ∧
    (s.sliceAddr? addr = some sl →
      (d ≠ 0 → w % 2 ^ 16 = 0 ∨ w / 2 ^ 16 % 4 = 3 ∨ 2 ^ 18 ≤ w → Gives (.bspart d a b) s (scalarResult s d 9)) ∧
      (w % 2 ^ 16 ≠ 0 → w / 2 ^ 16 % 4 ≠ 3 → w < 2 ^ 18 →
        let r := (parked .plain).bspart sl (w % 2 ^ 16) (w / 2 ^ 16 % 4) s.fr.part
        Gives (.bspart d a b) s
          (r.2.deliver { who := .ctx me, rk := .plain, d := d, addr := addr } { status := r.1 })) ∧
      (w % 2 ^ 16 ≠ 0 → w / 2 ^ 16 % 4 ≠ 3 → w < 2 ^ 18 →
        let mask := w % 2 ^ 16
        let mode := w / 2 ^ 16 % 4
        let cached (k : Nat) : Bool := x.modeAt k == .cache
        let leave := (List.range 16).countP fun k => mask.testBit k && cached k && mode != 0
        let join := (List.range 16).countP fun k => mask.testBit k && !cached k && mode == 0
        let ways := (List.range 16).countP cached
        let busy : Prop := ∃ k, k < 16 ∧ mask.testBit k = true ∧ ((cached k = false ∧ x.ownerAt k ≠ some s.fr.part) ∨
          (∃ c ∈ x.queue, c.mask.testBit k = true) ∨ (∃ r, x.run = some r ∧ r.call.mask.testBit k = true) ∨
          ∃ row ∈ x.rows, row.bank = k)
        let beyond : Prop := (s.part s.fr.part.toNat).bankQuota.toNat + join < s.banksHeld s.fr.part + leave
        let replies (t : State) (status : BitVec 8) : Prop := ∃ m, t.msgs = s.msgs ++ [.reply m] ∧ m.who = .ctx me ∧
          m.d = d ∧ m.kind = .plain ∧ m.status = status
        let refused (status : BitVec 8) : Prop := ∃ t, Gives (.bspart d a b) s t ∧ t.fr.status = .parked ∧
          replies t status ∧ t.slices = s.slices ∧ t.mem = s.mem
        (busy → refused 7) ∧ (¬busy → beyond → refused 11) ∧ (¬busy → ¬beyond → ways + join < 2 + leave → refused 12) ∧
        (¬busy → ¬beyond → 2 + leave ≤ ways + join → (∀ l ∈ s.lines, l.pin = none) → s.mem.wf = true →
          ∃ t, Gives (.bspart d a b) s t ∧ t.fr.status = .parked ∧ replies t 0 ∧ ∀ k, k < 16 →
            let entered := mask.testBit k && mode != 0 && (x.modeAt k).code != mode
            ((t.sliceAt sl).modeAt k).code = (if mask.testBit k then mode else (x.modeAt k).code) ∧
            (mask.testBit k = true → mode ≠ 0 → (t.sliceAt sl).ownerAt k = some s.fr.part) ∧
            (mask.testBit k = false → (t.sliceAt sl).ownerAt k = x.ownerAt k) ∧
            ∀ off, off < 2 ^ 18 → t.mem.get (sliceKey sl (k * 2 ^ 18 + off)) =
              if entered then 0 else s.mem.get (sliceKey sl (k * 2 ^ 18 + off)))) ∧
      (∃ t m, Gives (.bsstat d a) s t ∧ t.fr.status = .parked ∧ t.msgs = s.msgs ++ [.reply m] ∧ m.who = .ctx me ∧
        m.d = d ∧ m.kind = .raw ∧ t.slices = s.slices ∧ ∀ k : Fin 16, ∀ bit < 2,
          m.value.toNat / 2 ^ (2 * k.val + bit) % 2 = (x.modeAt k.val).code / 2 ^ bit % 2) ∧
      ((∀ c ∈ x.queue, c.waiter ≠ me) → x.run = none → x.input = [] →
        ∃ t m, Gives (.bsabort d a) s t ∧ t.fr.status = .parked ∧ t.msgs = s.msgs ++ [.reply m] ∧ m.who = .ctx me ∧
          m.value = 0 ∧ (t.sliceAt sl).queue = x.queue)) ∧
    (∀ c det, d ≠ 0 → s.padFault addr.toNat 32 32 = some (c, det) → Gives (.bscall d a imm) s (s.trap c addr det)) ∧
    (∀ f : Frame, f = s.fr → d ≠ 0 → s.padFault addr.toNat 32 32 = none →
      let blk := s.mem.value (localKey s.here addr.toNat) 32
      let e := imm.toNat % 64
      let counter : Word := .ofNat 64 (cmdField blk 16 8)
      let c : Call := { waiter := me, frame := s.cur, part := f.part, asid := f.asid, entry := .ofNat 6 e, block := blk }
      let u := if counter = 0 then s else s.countersLooked [counter]
      (counter = 0 ∨ s.counterFault counter = none) →
      (s.sliceAddr? (s.rs d) = none → Gives (.bscall d a imm) s (scalarResult u d 9)) ∧
      (s.sliceAddr? (s.rs d) = some sl → blockOk (x.useOf e) e blk = false ∨ s.counterCell counter = false →
        Gives (.bscall d a imm) s (scalarResult u d 9)) ∧
      (s.sliceAddr? (s.rs d) = some sl → blockOk (x.useOf e) e blk = true → s.counterCell counter = true →
        f.complete = false → Gives (.bscall d a imm) s u) ∧
      (s.sliceAddr? (s.rs d) = some sl → blockOk (x.useOf e) e blk = true → s.counterCell counter = true →
        f.complete = true → x.input = [] →
        x.queue.length < 16 → s.dev.fwLeft = [] →
        (∀ k, k < 16 → c.mask.testBit k = true → s.computeBank sl k f.part = true) →
        ∃ t, Gives (.bscall d a imm) s t ∧ (t.sliceAt sl).queue = x.queue ++ [c] ∧ t.fr.status = .parked)) ∧
    (d = 0 → Gives (.bscall d a imm) s (s.trap 1 s.baseVal)) ∧
    let job (c : Call) : Nat := ((s.contextOf c.waiter).bind (·.job)).getD 0
    let added (c : Call) (marks : Nat) : Msg :=
      .agentAdd (.ofNat 64 (cmdField c.block 16 8)) c.asid 1 marks (some c.waiter) (sliceEndpoint sl) (job c)
    let zRow (c : Call) (a : Nat) : Prop := ∃ b ∈ banksOf c.mask, ∃ row ∈ c.rowsOf 6 10, rowKey sl b row ≤ a ∧ a < rowKey sl b row + 512
    (∀ c rest, x.run = none → x.queue = c :: rest → x.input = [] → c.orphan = true →
      (s.dev.ready.getLsbD 9 = false ∨ x.extValid.getLsbD c.entry.toNat = false) →
      ∃ t, Gives (.mossCallStart sl) s t ∧ (t.sliceAt sl).run = none ∧ (t.sliceAt sl).queue = rest ∧
        t.msgs = s.msgs ++ [added c 1] ∧ t.mem = s.mem) ∧
    (∀ c rest, x.run = none → x.queue = c :: rest → x.input = [] → s.dev.ready.getLsbD 9 = true →
      x.extValid.getLsbD c.entry.toNat = true →
      ∃ t r, Gives (.mossCallStart sl) s t ∧ (t.sliceAt sl).run = some r ∧ r.call = c ∧ r.issued = 0 ∧
        r.words = x.wordsOf c ∧ (t.sliceAt sl).queue = rest ∧ t.frames = s.frames) ∧
    (∀ r, x.run = some r → x.waiting = 0 → x.rows ≠ [] → r.suspended = false → 0 < r.issued → r.sinceBoundary = 0 →
      r.issued < r.words → ∃ t q, Gives (.busCycle sl) s t ∧ (t.sliceAt sl).run = some q ∧ q.suspended = true ∧
        q.issued = r.issued ∧ (t.sliceAt sl).mpc = x.mpc) ∧
    (∀ r, x.run = some r → x.rows = [] → x.waiting = 0 → r.abort = none → r.suspended = false → r.issued < r.words →
      r.issued < s.budgetOf r.call → ∃ t q, Gives (.busCycle sl) s t ∧ (t.sliceAt sl).run = some q ∧
        q.issued = r.issued + 1 ∧ q.call = r.call ∧ q.words = r.words ∧ t.frames = s.frames ∧
        (s.mem.wf = true → ∀ a, ¬zRow r.call a → t.mem.get a = s.mem.get a)) ∧
    (∀ r, x.run = some r → r.words ≤ r.issued → ∃ t, Gives (.mossCallComplete sl) s t ∧
      (t.sliceAt sl).run = none ∧ t.frames = s.frames ∧ t.msgs = s.msgs ++ [added r.call 0]) ∧
    (let mine (c : Call) : Bool := c.waiter == me && !c.orphan
     let marked (t : State) (c : Call) : Prop := s.fr.arrflt.getLsbD 21 = false →
       t.fr.arrflt = .ofNat 64 (c.entry.toNat + sl % 48 * 2 ^ 6 + sl / 48 * 2 ^ 12 + 4 * 2 ^ 16 + 2 ^ 21) ∧
       t.fr.pendArray = s.fr.pendArray
     s.sliceAddr? addr = some sl → x.input = [] → (s.ctxAt (me % 2 ^ 20)).state = .resident →
     (s.ctxAt (me % 2 ^ 20)).frame = s.cur →
     ((∀ r, x.run = some r → mine r.call = false) → ∃ t m, Gives (.bsabort d a) s t ∧ t.fr.status = .parked ∧
       (t.sliceAt sl).queue = x.queue.filter (fun c => !mine c) ∧ (t.sliceAt sl).run = x.run ∧
       t.msgs = s.msgs ++ (x.queue.filter mine).map (added · 1) ++ [.reply m] ∧ m.who = .ctx me ∧ m.d = d ∧
       m.value = .ofNat 64 (x.queue.filter mine).length ∧ t.mem = s.mem ∧
       ∀ c, x.queue.filter mine = [c] → marked t c) ∧
     (∀ r, x.run = some r → mine r.call = true → r.issued < r.words → (∀ c ∈ x.queue, mine c = false) →
       (r.suspended = true → ∃ t m, Gives (.bsabort d a) s t ∧ t.fr.status = .parked ∧ (t.sliceAt sl).run = none ∧
         (t.sliceAt sl).queue = x.queue ∧ t.msgs = s.msgs ++ [added r.call 1, .reply m] ∧ m.who = .ctx me ∧ m.value = 1 ∧
         t.mem = s.mem ∧ marked t r.call) ∧
       (r.suspended = false → ∃ t, Gives (.bsabort d a) s t ∧ t.fr.status = .parked ∧
         (t.sliceAt sl).run = some { r with abort := some 1 } ∧ t.msgs = s.msgs ∧ t.mem = s.mem))) ∧
    (∀ r n, x.run = some r → x.rows = [] → x.waiting = 0 → r.abort = some n → r.suspended = false → r.issued < r.words →
      r.issued < s.budgetOf r.call →
      (r.boundary = true → ∃ t m, Gives (.busCycle sl) s t ∧ (t.sliceAt sl).run = none ∧
        t.msgs = s.msgs ++ [added r.call 1, .reply m] ∧ m.who = .ctx r.call.waiter ∧ m.value = .ofNat 64 n) ∧
      (r.boundary = false → ∃ t q, Gives (.busCycle sl) s t ∧ (t.sliceAt sl).run = some q ∧ q.abort = some n ∧
        q.issued = r.issued + 1 ∧ t.msgs = s.msgs)) ∧
    (∀ r, x.run = some r → s.budgetOf r.call ≤ r.issued → r.issued < r.words → r.abort = none → x.input = [] →
      let cleared (t : State) : Prop := (t.sliceAt sl).run = none ∧ (t.sliceAt sl).queue = [] ∧ (t.sliceAt sl).mpc = 0 ∧
        (t.sliceAt sl).latches = [] ∧ ∀ k : Fin 16, ∀ off < 2 ^ 18, x.modeAt k.val = .compute → s.mem.wf = true →
          t.mem.get (sliceKey sl (k.val * 2 ^ 18 + off)) = 0
      let home (c : Call) (n : Nat) : Prop := c.orphan = false ∧ c.frame = n ∧ (s.ctxAt (c.waiter % 2 ^ 20)).state = .resident ∧
        (s.ctxAt (c.waiter % 2 ^ 20)).frame = n ∧ (s.frameAt n).arrflt.getLsbD 21 = false
      let told (t : State) (c : Call) (n cause : Nat) : Prop :=
        (t.frameAt n).arrflt = .ofNat 64 (c.entry.toNat + sl % 48 * 2 ^ 6 + sl / 48 * 2 ^ 12 + cause * 2 ^ 16 + 2 ^ 21) ∧
        (t.frameAt n).pendArray = some (.ofNat 64 (cmdField c.block 16 8))
      (x.queue = [] → r.call.orphan = true → ∃ t, Gives (.budgetExpiry sl) s t ∧ cleared t ∧
        t.msgs = s.msgs ++ [added r.call 1] ∧ t.frames = s.frames) ∧
      (∀ n, x.queue = [] → home r.call n → ∃ t, Gives (.budgetExpiry sl) s t ∧ cleared t ∧
        t.msgs = s.msgs ++ [added r.call 1] ∧ told t r.call n 1 ∧ ((s.frameAt n).inS = false → (s.frameAt n).capture = none → (t.frameAt n).asyncReady = true)) ∧
      (∀ c n m, x.queue = [c] → home r.call n → home c m → n ≠ m → ∃ t, Gives (.budgetExpiry sl) s t ∧ cleared t ∧
        t.msgs = s.msgs ++ [added r.call 1, added c 1] ∧ told t r.call n 1 ∧ told t c m 3))

/-- R292: the r of each vendor entry before it is narrowed: integers of X and Y in a lane, the bits of X, SELECT's flag row, the
lanes of a group of 64, and K; and r as the rows of Z take it, modulo 2^wZ or clamped at either end of its range.
The model's choice, no rule of the spec, where it rests on log entry 45. -/
def Obligations.MossEntryResults : Prop :=
  ∀ (m : Memory) (c : Call) (sl bank lane : Nat),
    let signed := (c.field 11 1).testBit 1
    let xAt (l : Nat) : Int := laneInt m sl bank (c.field 2 2) (c.field 8 1) l signed
    let x := xAt lane
    let y := laneInt m sl bank (c.field 4 2) (c.field 9 1) lane signed
    let bit (row : Nat) : Bool := (m.get (laneKey sl bank row lane)).getLsbD (lane % 8)
    let xBit (i : Nat) : Bool := bit (c.field 2 2 + i)
    let gives (e : BitVec 6) (r : Int) : Prop := c.entry = e → entryResult m c sl bank lane = r
    let wz := c.field 10 1
    let sat := (c.field 11 1).testBit 0
    gives 0 0 ∧ gives 1 x ∧ gives 2 (x + y) ∧ gives 3 (x - y) ∧ gives 4 (x + c.k) ∧ gives 5 (c.k * x) ∧
    gives 6 (y + c.k * x) ∧ gives 7 (if y < x then 1 else 0) ∧ gives 8 (if bit (c.field 12 4 % 512) then x else y) ∧
    gives 9 (max x y) ∧ gives 10 (min x y) ∧ gives 11 ((List.range (c.field 8 1)).countP xBit) ∧
    gives 12 (x * 2 ^ (c.field 12 4 % 64)) ∧ gives 13 (x / 2 ^ (c.field 12 4 % 64)) ∧
    (c.entry = 14 → (∀ i < c.field 8 1, xBit i = (c.field 12 4).testBit i) → entryResult m c sl bank lane = 1) ∧
    (c.entry = 14 → (∃ i < c.field 8 1, xBit i ≠ (c.field 12 4).testBit i) → entryResult m c sl bank lane = 0) ∧
    gives 15 (if lane % 64 = 0 then ((List.range 64).map fun i => xAt (lane + i)).sum else 0) ∧
    (∀ r, sat = false → 1 ≤ wz → (c.narrow r : Int) = r % 2 ^ wz) ∧
    (∀ r, sat = true → signed = false → 2 ^ wz ≤ r → (c.narrow r : Int) = 2 ^ wz - 1) ∧
    (∀ r, sat = true → signed = false → r < 0 → c.narrow r = 0) ∧
    (∀ r, sat = true → signed = false → 0 ≤ r → r < 2 ^ wz → (c.narrow r : Int) = r) ∧
    (∀ r, sat = true → signed = true → 1 ≤ wz → 2 ^ (wz - 1) ≤ r → c.narrow r = 2 ^ (wz - 1) - 1) ∧
    (∀ r, sat = true → signed = true → 1 ≤ wz → r < -2 ^ (wz - 1) → c.narrow r = 2 ^ (wz - 1)) ∧
    (∀ r, sat = true → signed = true → 1 ≤ wz → -2 ^ (wz - 1) ≤ r → r < 2 ^ (wz - 1) →
      (c.narrow r : Int) = r % 2 ^ wz) ∧
    (∀ r, c.written r = (if c.entry = 7 ∨ c.entry = 14 then r.toNat else c.narrow r))

/-! ### Page 9 and the rhizome fabric -/

/-- R345, R346: REGWIN of a descriptor that obeys R345 and meets no other window makes the lowest free number ACTIVE and
answers it; REVWIN of an ACTIVE window with nothing in flight makes it REVOKED and its counter receives its add; both
are PRIV in U. -/
def Sys2Proof.Claims.RegistrationWindows : Prop :=
  ∀ (d a b : SReg) (s : State) (n : Nat),
    let x := s.mem.value (localKey s.here (s.rs a).toNat) 32
    let me : Waiter := .ctx (s.waiterId s.fr.handle)
    (s.fr.inS = false → Gives (.regwin d a) s (s.trap 2 s.baseVal) ∧ Gives (.revwin d a b) s (s.trap 2 s.baseVal)) ∧
    (∀ c det, s.fr.inS = true → s.padFault (s.rs a).toNat 32 32 = some (c, det) →
      Gives (.regwin d a) s (s.trap c (s.rs a) det)) ∧
    (∀ c, s.fr.inS = true → s.counterFault (s.rs b) = some c → Gives (.revwin d a b) s ((s.countersLooked [s.rs b]).trap c (s.rs b))) ∧
    (s.fr.inS = true → s.padFault (s.rs a).toNat 32 32 = none →
      (windowOk x = false → ∃ t m, Gives (.regwin d a) s t ∧ t.windows = s.windows ∧ t.msgs = s.msgs ++ [.reply m] ∧
        m.who = me ∧ m.value = 9 ∧ t.fr.status = .parked) ∧
      (windowOk x = true → s.windowMeets (cmdField x 0 8) (cmdField x 8 8) = false → s.freeWindow = some n →
        ∃ t m w, Gives (.regwin d a) s t ∧ tblGet? t.windows n = some w ∧ w.state = .active ∧
          w.base = cmdField x 0 8 ∧ w.size = cmdField x 8 8 ∧ w.asid = .ofNat 16 (cmdField x 16 2) ∧
          w.part = s.fr.part ∧ (∀ k, k ≠ n → tblGet? t.windows k = tblGet? s.windows k) ∧
          t.msgs = s.msgs ++ [.reply m] ∧ m.who = me ∧ m.value = 0 ∧ m.payload = leBytes 8 n ∧
          t.fr.status = .parked)) ∧
    (∀ w, s.fr.inS = true → s.counterFault (s.rs b) = none → (s.rs a).toNat = n → tblGet? s.windows n = some w →
      (w.state = .active → w.inflight = 0 → ∃ t m, Gives (.revwin d a b) s t ∧
        tblGet? t.windows n = some { w with state := .revoked, counter := s.rs b, cntAsid := s.fr.asid } ∧
        t.msgs = s.msgs ++ [.reply m, .agentAdd (s.rs b) s.fr.asid 1 0 none (gatewayEndpoint 0) 0] ∧ m.who = me ∧ m.value = 0 ∧
        t.fr.status = .parked) ∧
      (w.state ≠ .active → ∃ t m, Gives (.revwin d a b) s t ∧ t.windows = s.windows ∧
        t.msgs = s.msgs ++ [.reply m] ∧ m.value = 9)) ∧
    (∀ w, tblGet? s.windows n = some w → w.state = .revoking → w.inflight = 0 → ∃ t, Gives (.windowRevoked n) s t ∧
      tblGet? t.windows n = some { w with state := .revoked } ∧ t.frames = s.frames ∧
      t.msgs = s.msgs ++ [.agentAdd w.counter w.cntAsid 1 0 none (gatewayEndpoint 0) 0])

/-- R348, R349, R351, R352: a transfer whose wait is over goes on; one whose packets are all acknowledged leaves the FIFO
and its counters receive their adds; a failed one gives them the error mark and makes FABRIC pending; a multicast branch
gets its copy; a contribution or an abort reaches its barrier. -/
def Sys2Proof.Claims.TransfersAndCollectives : Prop :=
  ∀ (s : State) (rest : List Msg) (c k : Nat) (b : Block) (x : Cmd), (s.coreAt c).fifo[k]? = some b →
    let without : State := { s with msgs := rest }
    let adds (m : Nat) : List Msg := ([cmdField x.raw 40 8, cmdField x.raw 48 8].filter (· ≠ 0)).map fun v =>
      .agentAdd (.ofNat 64 v) b.asid 1 m none b.endpoint (b.job.getD 0)
    let lone := b.cmds = [x] ∧ b.next = 0 ∧ b.kind = .xfer ∧ s.dataOut c b.id = false ∧
      b.early = false ∧ b.added = []
    (∀ home, s.msgs = .xferWake c b.id 0 home :: rest → (s.coreAt c).fifo.find? (·.id == b.id) = some b →
      Gives (.transferWaitWake 0) s (without.putBlock c { b with waiting := false })) ∧
    (lone → b.sent = true → b.failed = none → ∃ t, Gives (.transferComplete c k) s t ∧ t.msgs = s.msgs ++ adds 0 ∧
      (t.coreAt c).fifo = (s.coreAt c).fifo.filter (·.id != b.id) ∧ t.mem = s.mem ∧ t.frames = s.frames) ∧
    (∀ det addr, lone → b.failed = some (det, addr) → b.orphan = false →
      (s.ctxAt b.handle.toNat).state = .resident → (s.ctxAt b.handle.toNat).frame = b.frame →
      ∃ t, Gives (.transferError c k) s t ∧ t.msgs = s.msgs ++ adds 1 ∧
        (t.coreAt c).fifo = (s.coreAt c).fifo.filter (·.id != b.id) ∧
        t.frameAt b.frame =
          { s.frameAt b.frame with pendFabric := (s.frameAt b.frame).pendFabric ++ [(det, addr)] }) ∧
    (∀ p m q g, s.msgs = .fork p none g :: rest → p.members = [(m, q)] → Gives (.multicastFork 0) s
      (without.transmit { p with dst := .ofNat 18 m, members := [(m, q)] })) ∧
    (∀ p g m q ms, s.msgs = .fork p none g :: rest → s.nextBranch p = ((m, q) :: ms, []) → Gives (.multicastFork 0) s
      (without.transmit { p with dst := .ofNat 18 m, members := (m, q) :: ms })) ∧
    (∀ p g m q ms e es, s.msgs = .fork p none g :: rest → s.nextBranch p = ((m, q) :: ms, e :: es) → ∃ t,
      Gives (.multicastFork 0) s t ∧ t.msgs = rest ++ [.fork { p with members := e :: es } none g] ∧
        t.ports = (without.transmit { p with dst := .ofNat 18 m, members := (m, q) :: ms }).ports) ∧
    (∀ p g j m q, s.msgs = .fork p (some (c, (b.id, j))) g :: rest → p.members = [(m, q)] → m < 2 ^ 18 →
      s.blockById c b.id = some b → s.flowOut? (ingressOf p.sep.toNat) m 2 = none →
      (m ∈ b.bad → Gives (.multicastFork 0) s without) ∧
      (m ∉ b.bad → p.cls = 2 → ∃ t r, Gives (.multicastFork 0) s t ∧ t.remotes = s.remotes ++ [r] ∧ r.dst = m ∧
        r.what = .data c b.id j ∧
        t.ports = (without.transmit { p with dst := .ofNat 18 m, members := [(m, r.seq)] }).ports)) ∧
    (∀ w shape, s.msgs = .combine w shape [] :: rest → s.descPending w.cell = false → s.replayOn = false →
      Gives (.combineArrival 0) s (without.request w.req w.cell (.combine w.payload shape))) ∧
    (∀ cell, s.msgs = .abort cell :: rest →
      (without.cellTag cell = 2 → s.replayOn = false → Gives (.collectiveAbort 0) s (without.objStep { who := .drain 0 } cell .abortCell).1) ∧
      (without.cellTag cell ≠ 2 → s.replayOn = false → Gives (.collectiveAbort 0) s without))

/-- R345, R346, R348 to R352: registration windows, transfers, multicasts and collectives.
The model's choice, no rule of the spec, where it rests on log entries 34, 38, 67, 106, 114, 120 and 132. -/
def Obligations.WindowsTransfersCollectives : Prop :=
  RegistrationWindows ∧ TransfersAndCollectives

/-- R339 to R345: packets, acknowledgements, refusals, purges and links. A packet with an error tail is discarded, one of a kind
in another class than its own discarded and counted; one already delivered is acknowledged again; one in its turn moves the flow on,
and without a window is refused by a note that names its SEQ with cause ACCESS; an ACK frees the gateway's copy and acknowledges a posted access; a refusal ends it; a
path that times out is purged, and no copy of the flow that no link has numbered yet is left on it; when no path is left without a marker the destination is unreachable; a link takes packets in the
order of LSEQ alone, and a failed one discards what it holds.
The model's choice, no rule of the spec, where it rests on log entries 12, 63, 76, 77, 104 and 106. -/
def Obligations.FabricFlowsAndLinks : Prop :=
  ∀ (s : State) (p : Packet) (n : Nat),
    let x := FlowNote.ofBytes p.payload
    let ok := !p.trailer.errorTail
    let mine (f : FlowOut) : Prop := s.flowOut? x.gateway x.dst x.cls = some f
    let flowKey (f : FlowOut) : Prop := s.flowsOut[n]? = some f
    (p.dst ≠ s.dev.dev → Gives (.fabricPacketArrival p) s s) ∧
    (p.dst = s.dev.dev → p.trailer.errorTail = true → Gives (.fabricPacketArrival p) s s) ∧
    (p.dst = s.dev.dev → ok = true → kindClass p.kind.toNat p.cls.toNat = false →
      ∃ t g, Gives (.fabricPacketArrival p) s t ∧ t = { s with dev := { s.dev with gatewayErrors := t.dev.gatewayErrors } } ∧
        g = flowEndpoint p.src.toNat (ingressOf p.sep.toNat) ∧
        (tblGet? t.dev.gatewayErrors g).getD 0 = (tblGet? s.dev.gatewayErrors g).getD 0 + 1) ∧
    (p.dst = s.dev.dev → ok = true → kindClass p.kind.toNat p.cls.toNat = true → p.cls ≠ 3 → p.kind ≠ 12 →
      let f := s.flowIn p.src.toNat (ingressOf p.sep.toNat) p.cls.toNat
      (1024 ≤ (p.seq - f.expect).toNat → Gives (.fabricPacketArrival p) s (s.ackPacket p)) ∧
      (p.cls = 0 → p.seq = f.expect → f.seen = [] → f.held = [] → s.replayOn = false → s.recording = false →
        (s.admitting p = none → ∃ t q, Gives (.fabricPacketArrival p) s t ∧ t.mem = s.mem ∧ t.msgs = s.msgs ∧
          t.frames = s.frames ∧
          (t.flowIn p.src.toNat (ingressOf p.sep.toNat) p.cls.toNat).expect = f.expect + 1 ∧
          t.ports = (s.transmit q).ports ∧ q.kind = 9 ∧ q.cls = 3 ∧ q.dst = p.src ∧
          q.target.toNat = gatewayEndpoint (ingressOf p.sep.toNat) ∧
          FlowNote.ofBytes q.payload = { (packetNote p) with cause := 6 }) ∧
        (∀ w, s.admitting p = some w → ∃ t, Gives (.fabricPacketArrival p) s t ∧
          t.msgs = s.msgs ++ [.arrived p w] ∧ t.mem = s.mem ∧
          (t.flowIn p.src.toNat (ingressOf p.sep.toNat) p.cls.toNat).expect = f.expect + 1))) ∧
    (∀ f q r h k, p.cls = 3 → ok = true → p.dst = s.dev.dev → mine f → f.unacked = [q] → f.queued = [] → s.remotes = [r] →
      r.gateway = x.gateway → r.dst = x.dst → r.cls = x.cls → r.seq = q.seq → x.first = q.seq.toNat →
      x.last = q.seq.toNat → r.what = .posted n h k →
      (p.kind = 8 → ∃ t, Gives (.fabricAck p) s t ∧ t.remotes = [] ∧ t.msgs = s.msgs ++ [.ack n h k] ∧
        t.mem = s.mem) ∧
      (p.kind = 9 → x.path = none → ∃ t, Gives (.fabricRefusal p) s t ∧ t.remotes = [] ∧
        t.msgs = s.msgs ++ [.refusal n h k (.ofNat 8 x.cause)] ∧ t.mem = s.mem)) ∧
    (∀ f q rest, flowKey f → f.unacked = q :: rest → f.purging = false → f.unreachable = false →
      ∃ t g, Gives (.endToEndTimeout n) s t ∧ t.flowOut? f.gateway f.dst f.cls = some g ∧ g.purging = true ∧
        g.failedPorts = pathCode q.rot.toNat q.port.toNat :: f.failedPorts ∧ g.unacked = f.unacked ∧ t.mem = s.mem ∧
        let ofPath (z : Packet) : Prop := z.kind ≠ 12 ∧ z.src = s.dev.dev ∧ z.cls.toNat = f.cls ∧
          ingressOf z.sep.toNat = f.gateway ∧ z.rot = q.rot ∧ z.port = q.port
        (∀ y, (s.portAt y).outQueue <+: (t.portAt y).outQueue ∧
          ∀ z ∈ (t.portAt y).waiting, ofPath z → z.members = [] → z.dst.toNat ≠ f.dst) ∧
        (∀ z g, Msg.fork z none g ∈ t.msgs → ofPath z → ∀ m ∈ z.members, m.1 ≠ f.dst) ∧
        (∀ m ∈ s.msgs, (∀ z o g, m ≠ .fork z o g) → (∀ z g, m ≠ .branch z g) → m ∈ t.msgs)) ∧
    (∀ f, flowKey f → f.purging = true → f.unacked = [] → f.queued = [] →
      ((∀ e ∈ s.pathsFrom 0 0, pathCode e.1 e.2 ∈ f.failedPorts ∨ pathCode e.1 e.2 ∈ f.marked) →
        Gives (.purgeTimeout n) s (s.putFlowOut { f with unreachable := true, purging := false })) ∧
      (∀ e ∈ s.pathsFrom 0 0, pathCode e.1 e.2 ∉ f.failedPorts → pathCode e.1 e.2 ∉ f.marked →
        ∃ t g, Gives (.purgeTimeout n) s t ∧ t.flowOut? f.gateway f.dst f.cls = some g ∧ g.purging = true ∧
          g.unreachable = f.unreachable ∧ pathCode e.1 e.2 ∈ g.marked ∧ t.msgs = s.msgs ∧ t.mem = s.mem)) ∧
    (∀ f, p.kind = 13 → p.cls = 3 → ok = true → p.dst = s.dev.dev → x.source = none → mine f → f.purging = true → f.unacked = [] →
      f.queued = [] → Gives (.purged p) s (s.putFlowOut { f with purging := false, marked := [] })) ∧
    (p.kind = 12 → p.cls ≠ 3 → ok = true → x.dst = s.devNum → ∃ t, Gives (.purgeMarker p) s t ∧ t.mem = s.mem ∧
      t.msgs = s.msgs ∧ (t.flowIn (x.source.getD p.src.toNat) x.gateway x.cls).held = []) ∧
    (let y := s.portAt n
     n < 24 → y.up = true →
      (y.discarding = false → ∃ t q, Gives (.linkCrcFail n) s t ∧ (t.portAt n).discarding = true ∧
        (t.portAt n).outQueue = y.outQueue ++ [q] ∧ q.kind = 14 ∧ t.msgs = s.msgs ∧ t.mem = s.mem) ∧
      (y.replayBuffer = [] → y.waiting = [] →
        Gives (.linkReplayRequest n 0) s (s.putPort n { y with replays := 0 })) ∧
      (∀ q seq : BitVec 16, ∀ r, y.replayBuffer = [(seq, r)] → y.waiting = [] → 0 < (seq - q).toNat → (seq - q).toNat ≤ 32768 →
        y.replays < 16 → ∃ t z, Gives (.linkReplayRequest n q.toNat) s t ∧ (t.portAt n).replays = y.replays + 1 ∧
          (t.portAt n).outQueue = y.outQueue ++ [{ r with trailer := z }] ∧ z.lseq = seq ∧ z.lack = y.lack ∧ t.mem = s.mem) ∧
      (y.replayBuffer = [] → y.waiting = [] → Gives (.linkSilenceTimeout n) s
        (s.putPort n { y with up := false, failed := true, outQueue := [] })) ∧
      (∃ t q, Gives (.linkBeacon n) s t ∧ (t.portAt n).outQueue = y.outQueue ++ [q] ∧ q.kind = 14 ∧
        (t.portAt n).reported = y.freed ∧ t.msgs = s.msgs) ∧
      (p.kind = 14 → p.cls = 3 → p.payload.headD 1 ≠ 0 → Gives (.linkPacketReceive n p) s (s.putPort n (y.heard p.trailer))) ∧
      ((p.kind ≠ 14 ∨ p.cls ≠ 3) → p.trailer.lseq ≠ y.lack + 1 → Gives (.linkPacketReceive n p) s s) ∧
      (p.kind = 14 → p.cls ≠ 3 → ok = true → p.dst = s.dev.dev → p.members = [] → p.trailer.lseq = y.lack + 1 →
        ∃ t, Gives (.linkPacketReceive n p) s t ∧ (t.portAt n).lack = y.lack + 1 ∧ t.msgs = s.msgs ∧ t.mem = s.mem ∧
        (tblGet? t.dev.gatewayErrors (flowEndpoint p.src.toNat (ingressOf p.sep.toNat))).getD 0 =
          (tblGet? s.dev.gatewayErrors (flowEndpoint p.src.toNat (ingressOf p.sep.toNat))).getD 0 + 1) ∧
      (p.kind = 8 → p.cls = 3 → ok = true → p.dst = s.dev.dev → p.members = [] → p.trailer.lseq = y.lack + 1 →
        s.flowOut? x.gateway x.dst x.cls = none → ∃ t, Gives (.linkPacketReceive n p) s t ∧
        (t.portAt n).lack = y.lack + 1 ∧ (t.portAt n).discarding = false ∧ t.msgs = s.msgs)) ∧
    (n < 24 → s.podDims ≠ 0 → n / (2 * s.podDims) < s.groupPorts →
      Gives (.portRetrain n) s (if s.dev.ready.getLsbD 5 then s.putPort n { up := true } else s)) ∧
    (∃ t, Gives (.meshCrcReplay n) s t ∧ (t.linkAt n).replayed = (s.linkAt n).replayed + 1 ∧
      t = { s with links := t.links } ∧ ∀ r, (s.linkAt n).buffer = some r → (tblGet? s.links (linkBack n)).isSome = true →
        (t.linkAt (linkBack n)).reported = r.report) ∧
    (∃ t, Gives (.meshBeacon n) s t ∧ (t.linkAt n).reported = (s.linkAt n).freed ∧ t = { s with links := t.links } ∧
      (t.linkAt (linkBack n)).buffer = none)

/-! ### Page 10, traps and privilege -/

/-- R309, R310, R312, R325: TakeTrap in U with a handler saves the PC, the cause with its detail and length, and the
value, enters S, and goes to the cause's vector; inside a handler or without one the context is killed: its frame is
EMPTY, its matrix bank given up, its entry DEAD, and the chunk that it was dealt ends as DONE.AB ends it. A CTXSAVE that waits for its
save is answered BUSY (the model's choice, log entry 18).
The model's choice, no rule of the spec, where it rests on log entry 29. -/
def Obligations.TrapEntryOrKill : Prop :=
  ∀ (s : State) (cause : Nat) (val : Word) (detail : Nat), s.issue.inRep = false → cause < 2 ^ 8 → detail < 2 ^ 8 →
    1 ≤ s.issue.len → s.issue.len ≤ 5 →
    let t := s.trap cause val detail
    (s.fr.inS = false → s.fr.hndbase.toNat % 65536 ≠ 0 →
      t.fr = { s.fr with trapc := t.fr.trapc, trappc := s.fr.pc, trapval := val, pc := t.fr.pc, capture := none } ∧
      t.fr.trapc.toNat = cause + 2 ^ 8 * detail + 2 ^ 16 * s.issue.len + 2 ^ 31 ∧ t.fr.inS = true ∧
      t.fr.pc = (s.fr.hndbase &&& 0xFFFFFFFFFFFF0000#64) + .ofNat 64 (0x40 * cause) ∧
      t = s.putFr t.fr) ∧
    (s.fr.inS = true ∨ s.fr.hndbase.toNat % 65536 = 0 →
      (∀ j, s.fr.job = some j → .chunkEnd j s.fr.first s.fr.records true ∈ t.msgs) ∧
      (∀ w ∈ s.fr.stopFor, ∀ id, w.who = .ctx id → ∃ m, .reply m ∈ t.msgs ∧ m.who = .ctx id ∧ m.value = 7) ∧
      t.fr.status = .empty ∧ t.co.owner ≠ some (.ofNat 2 s.cur) ∧ (t.ctxAt s.fr.handle.toNat).state = .dead ∧
      (t.ctxAt s.fr.handle.toNat).image = some s.fr)

/-- R23, R308, R312, R315, R317: ERET returns to TRAPPC in U with nothing else changed, or resumes a trapped repetition; TRAP
retires and then takes cause 0x0C with n in TRAPVAL; a pending asynchronous trap is taken between groups, JOURNAL before COPY before
ARRAY before FABRIC; the clearing writes to JRNST, FAULTA and ARRFLT clear what they name. -/
def Obligations.TrapReturnAndAsynchronousTraps : Prop :=
  ∀ (s : State) (n : BitVec 8) (k : Nat) (v : Word), s.issue.inRep = false →
    let f := s.fr
    let x := s.frameAt k
    (f.inS = true → f.rep.trapv = false → ∃ t, Gives .eret s t ∧
      t = s.putFr { f with pc := f.trappc, trapc := f.trapc &&& 0xFFFFFFFF7FFFFFFF#64 } ∧ t.fr.inS = false) ∧
    (f.inS = true → f.rep.trapv = true → ∃ t, Gives .eret s t ∧ t.fr.inS = false ∧
      t = s.putFr { f with pc := f.rep.endPc + 2 * f.rep.cont.signExtend 64, rep := t.fr.rep,
                           trapc := f.trapc &&& 0xFFFFFFFF7FFFFFFF#64 } ∧
      (f.rep.active = true → t.fr.rep = { f.rep with trapv := false, nextIter := f.rep.iter, nextSlot := f.rep.slot }) ∧
      (f.rep.active = false → t.fr.rep = { f.rep with trapv := false })) ∧
    (f.inS = false → Gives .eret s (s.trap 2 s.baseVal)) ∧
    (f.inS = false → s.issue.len ≤ 5 → f.hndbase.toNat % 65536 ≠ 0 → ∃ t, Gives (.trap n) s t ∧ t.fr.inS = true ∧
      t.fr.trapc.toNat % 2 ^ 16 = 0x0C ∧ t = s.putFr { f with
        trappc := f.pc, trapval := n.setWidth 64, trapc := t.fr.trapc, capture := none,
        pc := .ofNat 64 (f.hndbase.toNat / 65536 * 65536 + 0x40 * 0x0C) }) ∧
    (x.status = .ready ∨ x.status = .issuing → x.stopping = none → x.inS = false → x.capture = none →
      x.hndbase.toNat % 65536 ≠ 0 →
      let enters (cause detail jent : Nat) (val : Word) : Prop := ∃ t, Gives (.asyncTrap k) s t ∧
        let y := t.frameAt k
        y.inS = true ∧ t = s.putFrame k y ∧ y = { x with
          trapc := .ofNat 64 (cause + detail * 2 ^ 8 + 2 ^ 19 + jent * 2 ^ 20 + 2 ^ 31), trappc := x.pc, trapval := val,
          pc := .ofNat 64 (x.hndbase.toNat / 65536 * 65536 + 0x40 * cause), pendJournal := y.pendJournal,
          pendCopy := y.pendCopy, pendArray := y.pendArray, pendFabric := y.pendFabric }
      (∀ e c rest, e < 16 → x.pendJournal = (e, c) :: rest → enters 0x10 c.toNat e (x.journal.toList[e]?.getD {}).addr) ∧
      (∀ a, x.pendJournal = [] → x.pendCopy = some a → enters 0x11 0 0 a) ∧
      (∀ a, x.pendJournal = [] → x.pendCopy = none → x.pendArray = some a →
        enters 0x12 (x.arrflt.toNat / 2 ^ 16 % 16) 0 a) ∧
      (∀ c a rest, x.pendJournal = [] → x.pendCopy = none → x.pendArray = none → x.pendFabric = (c, a) :: rest →
        enters 0x13 c.toNat 0 a)) ∧
    (x.inS = true → Gives (.faultaClear k v) s (s.putFrame k { x with faulta := x.faulta &&& ~~~(v &&& 0x600000) })) ∧
    (x.inS = true → v.getLsbD 21 = true → Gives (.arrfltClear k v) s (s.putFrame k { x with arrflt := 0 })) ∧
    (x.inS = true → v.getLsbD 21 = false →
      Gives (.arrfltClear k v) s (s.putFrame k { x with arrflt := x.arrflt &&& ~~~(v &&& 0x100000) })) ∧
    (∀ i : Fin 16, x.inS = true → v.getLsbD (16 + i.val) = true → x.journal[i].refused = true →
      ∃ t, Gives (.jrnstFree k v) s t ∧ (t.frameAt k).journal[i] = {} ∧ t.mem = s.mem ∧ t.msgs = s.msgs)

/-- R13, R313, R314: CRR reads, CRW writes and CRX exchanges a control register; an index that R314 does not list is
ILLEGAL; a register of S raises PRIV in U for a read, and one that U may not write for a write; a group that names FCSR waits for the
flags of a multiply of its frame that still runs; QFLAGS is never written. Each register's value and what a write of it keeps are
given; which union QFLAGS shows where the quad's has changed of late, and QUANT's remaining cycles, are open (log entries 11 and
65).
The model's choice, no rule of the spec, where it rests on log entries 11, 65 and 66. -/
def Obligations.ControlRegisterAccess : Prop :=
  ∀ (d a : SReg) (idx : BitVec 12) (s : State), s.issue.inRep = false →
    let i := idx.toNat
    let w := s.rs a
    let f := s.fr
    (i ∉ crIndices → Gives (.crr d idx) s (s.trap 1 s.baseVal) ∧ Gives (.crw a idx) s (s.trap 1 s.baseVal) ∧
      Gives (.crx d a idx) s (s.trap 1 s.baseVal)) ∧
    (i ∈ crIndices → crReadS i = true → f.inS = false → Gives (.crr d idx) s (s.trap 2 s.baseVal)) ∧
    (i ∈ crIndices → crWriteU i = false → f.inS = false → Gives (.crw a idx) s (s.trap 2 s.baseVal) ∧
      Gives (.crx d a idx) s (s.trap 2 s.baseVal)) ∧
    (i = 1 → s.mmaOut = true → Gives (.crr d idx) s s ∧ Gives (.crw a idx) s s ∧ Gives (.crx d a idx) s s) ∧
    (∀ x, (i = 1 → s.mmaOut = false) → i ∈ crIndices → (crReadS i = false ∨ f.inS = true) → i ≠ 0x30 → i ≠ 2 →
      s.crValue s.cur f i = some x → Gives (.crr d idx) s (scalarResult s d x)) ∧
    (i = 0x30 ∨ (i = 2 ∧ f.inS = true) → ∃ t, Gives (.crr d idx) s t ∧ t.freeCtr = s.freeCtr + 1 ∧ t.mem = s.mem ∧
      t.fr = { f with pc := pcAfter s, s := t.fr.s, poisonS := t.fr.poisonS } ∧
      ∀ r, r ≠ d → t.fr.getS r = f.getS r) ∧
    (∀ x y, (i = 1 → s.mmaOut = false) → i ∈ crIndices → (crWriteU i = true ∨ (f.inS = true ∧ i ≠ 2)) → f.writeCr i w = some y →
      s.crValue s.cur f i = some x →
      Gives (.crw a idx) s (s.putFr { y with pc := pcAfter s }) ∧
      (i ≠ 0x30 → Gives (.crx d a idx) s (s.putFr { y.setS d x with pc := pcAfter s }))) ∧
    (i = 1 → f.writeCr 1 w = (if 4 < w.toNat % 8 then none else some { f with fcsr := w &&& 0x1F0F })) ∧
    (i = 1 → 4 < w.toNat % 8 → s.mmaOut = false → Gives (.crw a idx) s (s.trap 1 s.baseVal)) ∧
    (i = 2 → Gives (.crw a idx) s (s.trap 2 s.baseVal) ∧ Gives (.crx d a idx) s (s.trap 2 s.baseVal)) ∧
    (i = 2 → f.inS = true → (s.quadAt (quadOf s.here)).flagHist = [] → d ≠ 0 →
      ∃ t, Gives (.crr d idx) s t ∧ ∀ k, (t.fr.getS d).getLsbD k = true ↔ 8 ≤ k ∧ k ≤ 12 ∧
        (s.quadAt (quadOf s.here)).resetting = false ∧ ∃ c m, c ∈ coresOfQuad (quadOf s.here) ∧ m < 4 ∧
          (s.frameAt (c * 4 + m)).status ≠ .empty ∧ (s.frameAt (c * 4 + m)).fcsr.getLsbD k = true) ∧
    (let value (k : Nat) : Option Word := s.crValue s.cur f k
     (∀ e ∈ [(1, f.fcsr), (0x10, f.fmta), (0x11, f.fmtb), (0x12, f.scla), (0x13, f.sclb), (0x1C, f.tags), (0x1D, f.tagerr),
       (0x32, f.drainc), (0x38, BitVec.ofNat 64 (32 + 512 * 2 ^ 16 + 4 * 2 ^ 32)), (0x40, f.faulta), (0x41, f.faultb),
       (0x44, f.arrflt), (0x100, f.trapc), (0x101, f.trappc), (0x102, f.trapval), (0x104, f.hndbase), (0x105, f.hnddata),
       (0x106, f.tscr0), (0x107, f.tscr1)], value e.1 = some e.2) ∧
     (∀ k : Fin 4, value (0x20 + k.val) = some f.pwb[k] ∧ value (0x24 + k.val) = some f.pws[k] ∧
       value (0x28 + k.val) = some f.expw[k]) ∧
     (∀ k : Fin 16, value (0x110 + k.val) = some f.journal[k].addr ∧ value (0x120 + k.val) = some f.journal[k].data) ∧
     (∃ x, value 0x18 = some x ∧ (f.rep.iter < 2 ^ 24 → x.toNat % 2 ^ 24 = f.rep.iter) ∧
       (f.rep.slot < 16 → x.toNat / 2 ^ 24 % 16 = f.rep.slot) ∧ x.toNat / 2 ^ 28 % 4 = 0 ∧ x.getLsbD 30 = f.rep.active ∧
       x.getLsbD 31 = f.rep.trapv ∧ x.toNat / 2 ^ 32 = f.rep.cont.toNat) ∧
     (∃ x, value 0x30 = some x ∧ x.toNat ≤ f.quantum.toNat) ∧
     (∃ x, value 0x34 = some x ∧ (f.watch.cell = none → x = 0) ∧
       (f.watch.cell.isSome = true → x.toNat % 2 ^ 16 = f.watch.latest.toNat ∧
         x.getLsbD 16 = decide (f.watch.ver.toNat < f.watch.latest.toNat) ∧ x.getLsbD 17 = f.watch.stop ∧
         x.getLsbD 18 = f.watch.final ∧ x.toNat / 2 ^ 19 = 1)) ∧
     (∃ x, value 0x3C = some x ∧
       x.toNat = (List.finRange 16).countP fun k => f.journal[k].busy && !f.journal[k].refused) ∧
     (∃ x, value 0x108 = some x ∧ x.toNat % 2 ^ 20 = f.handle.toNat ∧ (s.devNum < 2 ^ 18 → x.toNat / 2 ^ 20 % 2 ^ 18 = s.devNum ∧
       x.toNat / 2 ^ 38 % 64 = f.part.toNat ∧ x.toNat / 2 ^ 44 = f.level.toNat)) ∧
     (∃ x, value 0x109 = some x ∧ (s.cur < 16384 → s.devNum < 2 ^ 18 → x.toNat % 256 = s.here % 32 ∧
       x.toNat / 256 % 256 = s.here / 32 % 32 ∧ x.toNat / 2 ^ 16 % 4 = s.here / 1024 ∧ x.toNat / 2 ^ 18 % 2 ^ 18 = s.devNum ∧
       x.toNat / 2 ^ 36 = s.cur % 4)) ∧
     (∃ x, value 0x10C = some x ∧ x.toNat < 2 ^ 32 ∧ ∀ k : Fin 16, x.getLsbD k.val = f.journal[k].busy ∧
       x.getLsbD (16 + k.val) = f.journal[k].refused) ∧
     (∃ x, value 0x10D = some x ∧ ∀ k : Fin 16, x.toNat / 2 ^ (4 * k.val) % 4 = f.journal[k].sub.toNat ∧
       x.toNat / 2 ^ (4 * k.val + 2) % 4 = f.journal[k].kind.toNat) ∧
     (s.mmaOut = false → i = 1 → d ≠ 0 → f.writeCr 1 w = some { f with fcsr := w &&& 0x1F0F } →
       Gives (.crx d a idx) s (s.putFr { { f with fcsr := w &&& 0x1F0F }.setS d f.fcsr with pc := pcAfter s }))) ∧
    (i = 0x11 → f.writeCr i w = some { f with fmtb := w &&& 0xF }) ∧
    (i = 0x13 → f.writeCr i w = some { f with sclb := w &&& 0x7FFE0 }) ∧
    (i = 0x107 → f.writeCr i w = some { f with tscr1 := w }) ∧
    (∀ k : Fin 4, i = 0x28 + k.val → f.writeCr i w = some { f with expw := f.expw.set k.val (w &&& 0x7FFEFFFE0) }) ∧
    (i ∈ [0x18, 0x1C, 0x1D, 0x30, 0x34, 0x38, 0x3C, 0x41, 0x100, 0x102, 0x104, 0x105, 0x108, 0x109, 0x10D] →
      f.writeCr i w = some f) ∧
    (i = 0x10 → f.writeCr i w = some { f with fmta := w &&& 0x1F }) ∧
    (i = 0x12 → f.writeCr i w = some { f with scla := w &&& 0x7FFE0 }) ∧
    (i = 0x32 → f.writeCr i w = some { f with drainc := w }) ∧
    (i = 0x101 → f.writeCr i w = some { f with trappc := w }) ∧
    (i = 0x106 → f.writeCr i w = some { f with tscr0 := w }) ∧
    (i = 0x100 → f.writeCr i w = some f)

/-- R234, R316, R324: the page-10 instructions that control contexts, handlers and cached translations are PRIV in U; in
S they answer with their statuses: a handler region is taken over, a context held, released, killed or freed, and
translations are dropped throughout the device.
The model's choice, no rule of the spec, where it rests on log entries 44, 69, 74 and 131. -/
def Obligations.SupervisorControl : Prop :=
  ∀ (d a b : SReg) (s : State), s.issue.inRep = false →
    let x := s.rs a
    let y := s.rs b
    let h := x.toNat
    let c := s.ctxAt h
    let parked (f : Frame) : Frame :=
      { f with status := .parked, parkedOn := .slice, parkPc := f.pc, parkLen := s.issue.len, parkD := d, parkVd := 0,
               parkKind := .raw, pc := pcAfter s }
    let replies (i : Instr) (f : Frame) (status : Nat) (held : State → Prop) : Prop := ∃ t m, Gives i s t ∧
      t.fr = parked f ∧ t.msgs = s.msgs ++ [.reply m] ∧ m.who = .ctx (s.waiterId s.fr.handle) ∧ m.d = d ∧
      m.value = .ofNat 64 status ∧ (∀ n, n ≠ s.cur → t.frameAt n = s.frameAt n) ∧ held t
    let contexts (t : State) : Prop := t.ctxs = s.ctxs ∧ t.mem = s.mem
    let context (x : Ctx) (t : State) : Prop := t.ctxAt h = x ∧ (∀ k, k ≠ h → t.ctxAt k = s.ctxAt k) ∧
      (s.mem.wf = true → t.mem.value (s.recordAt h) 8 = x.word ∧ SameOutside s t (s.recordAt h) 8)
    let named : Prop := s.fr.complete = true ∧ h < 2 ^ 20 ∧ h ≠ s.fr.handle.toNat
    (s.fr.inS = false → ∀ i ∈ [Instr.hndset d a b, .ctxsave d a b, .ctxload d a b, .tlbinv d a b],
      Gives i s (s.trap 2 s.baseVal)) ∧
    (s.fr.inS = true →
      replies (.hndset d a b)
        (if s.hndStatus x y = 0 then { s.fr with hndbase := x, hnddata := y } else s.fr) (s.hndStatus x y) contexts ∧
      (x.toNat % 65536 = 0 → s.hndStatus x y = 9) ∧
      (s.fr.complete = true → 2 ^ 20 ≤ h ∨ c.state = .free ∨ 1 < y.toNat →
        replies (.ctxsave d a b) s.fr 9 contexts ∧ replies (.ctxload d a b) s.fr 9 contexts) ∧
      (named → c.state = .dead → y.toNat ≤ 1 → replies (.ctxsave d a b) s.fr 7 contexts) ∧
      (named → c.state = .runnable ∨ c.state = .saved → y = 0 →
        replies (.ctxsave d a b) s.fr 0 (context { c with held := true })) ∧
      (named → c.state = .resident → c.frame ≠ s.cur → y = 0 → ∃ t, Gives (.ctxsave d a b) s t ∧
        t.fr = parked s.fr ∧ context { c with held := true } t ∧ (t.frameAt c.frame).stopping = some 0 ∧
        t.msgs = s.msgs) ∧
      (named → c.state ≠ .free → y = 0 → replies (.ctxload d a b) s.fr 0 (context { c with held := false })) ∧
      (named → c.state = .runnable ∨ c.state = .saved → y = 1 →
        ∃ t, Gives (.ctxsave d a b) s t ∧ (t.ctxAt h).state = .dead ∧ t.fr = parked s.fr) ∧
      (named → c.state = .dead → c.cleaned = true → y = 1 → replies (.ctxload d a b) s.fr 0 (context {})) ∧
      (named → c.state = .dead → c.cleaned = false → y = 1 → replies (.ctxload d a b) s.fr 7 contexts) ∧
      (2 ^ 18 ≤ y.toNat → Gives (.tlbinv d a b) s (scalarResult s d 9)) ∧
      (y.toNat / 2 ^ 16 = 2 → x = 0 → s.fr.complete = true → s.postedOut = false → s.unitsOut = false → ∃ t, Gives (.tlbinv d a b) s t ∧
        t.fr = { s.fr.setS d 0 with pc := pcAfter s } ∧ t.mem = s.mem ∧
        (∀ n, (t.coreAt n).tlb = []) ∧ (∀ n, (t.quadAt n).l2tlb = []) ∧ ∀ n, (t.sliceAt n).walkCache = []) ∧
      (∀ asid, y = .ofNat 64 (2 ^ 16 + asid) → asid < 2 ^ 16 → x = 0 → s.fr.complete = true → s.postedOut = false →
        s.unitsOut = false →
        ∃ t, Gives (.tlbinv d a b) s t ∧ t.fr = { s.fr.setS d 0 with pc := pcAfter s } ∧ t.mem = s.mem ∧
        (∀ n, (t.coreAt n).tlb = (s.coreAt n).tlb.filter fun e => e.leaf.getLsbD 49 || e.asid.toNat != asid) ∧
        ∀ n, (t.sliceAt n).walkCache = []))

/-- R131, R136, R137, R222, R232, R326, R327, R334, R335, R372: the events of a core, a quad, a die and the whole device
that no instruction names.
The model's choice, no rule of the spec, where it rests on log entries 19, 71, 72, 76, 104 and 111. -/
def Obligations.CoreAndDieEvents : Prop :=
  ∀ (s : State) (n c k : Nat) (bits : BitVec 16),
    (∀ m, (s.coreAt c).issuing = some (.ofNat 2 n) → n / 4 = c → (s.frameAt n).status = .issuing →
      (s.frameAt n).repRunning = false → m / 4 = c → m ≠ n → (s.frameAt m).status = .ready →
      (s.frameAt m).stopping = none → (s.frameAt m).level = (s.frameAt n).level → Gives (.issueRotation c) s
        ((s.putFrame n { s.frameAt n with status := .ready }).putCore c
          { s.coreAt c with issuing := none, lastFrame := .ofNat 2 n })) ∧
    (quadOf n = n → s.fetchRequests n = [] → Gives (.fetchBlock n) s s) ∧
    (∀ w bs, quadOf n = n → s.fetchRequests n = [(c, w)] → (s.quadAt n).aged = [] →
      tblGet? (s.quadAt n).icache w.2 = some bs → ∃ t, Gives (.fetchBlock n) s t ∧
        (t.coreAt c).fetchBuffer = ((w.2, bs) :: (s.coreAt c).fetchBuffer).take 2 ∧ t.mem = s.mem ∧ t.frames = s.frames) ∧
    (∀ w, s.fetchRequests n = [(c, w)] → (s.quadAt n).aged = [] →
      Gives (.fetchAge n c) s (s.putQuad n { s.quadAt n with aged := [(c, w.1)] })) ∧
    (∀ asid va leaf size, coreExists c = true → asid < 2 ^ 16 → va < 2 ^ 39 →
      let sl := dieOf c * 48 + (asid ^^^ bitsOf va 31 16) % 48
      (s.walkBy (s.walkerRead sl) asid va).leaf = some (leaf, size) → (s.coreAt c).tlb = [] → (s.quadAt (quadOf c)).l2tlb = [] →
      ∃ t, Gives (.pageWalk c asid va) s t ∧
        (t.coreAt c).tlb = [{ asid := .ofNat 16 asid, vpage := va / 2 ^ size, bits := size, leaf := leaf }] ∧
        (t.quadAt (quadOf c)).l2tlb = (t.coreAt c).tlb ∧ t.mem = s.mem ∧ t.frames = s.frames) ∧
    Gives (.correctableError n) s { s with eccCorrected := s.eccCorrected + 1 } ∧
    (n < 3 * 2 ^ 42 → s.poison.contains (n / 32) = false →
      Gives (.uncorrectableError n) s { s with poison := n / 32 :: s.poison }) ∧
    (∀ r : SReg, n < 16384 → (s.frameAt n).status ≠ .empty →
      Gives (.uncorrectableError (2 ^ 46 + 64 * n + r.toNat)) s
        (s.putFrame n { s.frameAt n with poisonS := (s.frameAt n).poisonS ||| (1 <<< r.toNat) })) ∧
    (coreExists c = true → (∀ e ∈ s.frames, e.1 / 4 ∉ coresOfQuad (quadOf c)) →
      (∀ e ∈ s.ctxs, e.2.frame / 4 ∉ coresOfQuad (quadOf c)) → ∃ t, Gives (.quadReset c) s t ∧
        (t.quadAt (quadOf c)).resetting = true ∧ ∀ m, m / 4 ∈ coresOfQuad (quadOf c) → t.frameAt m = {}) ∧
    ((s.quadAt (quadOf c)).resetting = true → ∃ hist, Gives (.quadResetComplete c) s
      (s.putQuad (quadOf c) { s.quadAt (quadOf c) with resetting := false, flagHist := hist })) ∧
    (∃ t, Gives (.dieFence 4) s t ∧ t.stopped = true ∧ ∀ p : Fin 24, t.ports[p].failed = true ∧ t.ports[p].up = false) ∧
    (n < 4 → s.fenced.getLsbD n = true → Gives (.dieFence n) s s) ∧
    (n < 4 → s.fenced.getLsbD n = false → s.jobs = [] → (∀ e ∈ s.frames, dieOf (e.1 / 4) ≠ n) →
      (∀ e ∈ s.ctxs, dieOf (e.2.frame / 4) ≠ n) → ∃ t, Gives (.dieFence n) s t ∧ t.fenced = s.fenced ||| (1 <<< n) ∧
        t.electing = (s.electing || s.master.toNat == n) ∧ t.stopped = s.stopped ∧
        ∀ m, dieOf (m / 4) ≠ n → t.frameAt m = s.frameAt m) ∧
    (∀ u, n < 5 → Gives (.dieFence n) s u → Gives (.uncorrectableError (2 ^ 51 + n)) s u) ∧
    (∀ u, c < 4096 → coreExists c = true → Gives (.quadReset c) s u → Gives (.uncorrectableError (2 ^ 47 + c)) s u) ∧
    (∀ r : VReg, n < 16384 → (s.frameAt n).status ≠ .empty →
      Gives (.uncorrectableError (2 ^ 46 + 64 * n + 32 + r.toNat)) s
        (s.putFrame n { s.frameAt n with poisonV := (s.frameAt n).poisonV ||| (1 <<< r.toNat) })) ∧
    (s.electing = true → s.fenced.getLsbD k = false → k < 4 → (∀ j < k, s.fenced.getLsbD j = true) →
      Gives .masterElection s { s with master := .ofNat 2 k, electing := false }) ∧
    Gives (.thermalThrottle bits) s { s with dev := { s.dev with idle := bits } }

/-! ### Jobs, chunks and contexts -/

/-- R91, R139 to R145, R149 to R151: a card is popped in its turn and accepted or refused; the level's job deals its next chunk to
the frame that its policy picks, its place in the round kept, and the turn is the next job's, and a gang all its ranks at once; a chunk that has loaded gives the frame its entry registers, sp by
frame, the range, the record address, its rank and its windows, writes the layout records of a job that the frame has not
just run, and makes it READY; an ended chunk is counted, an abandoned one as such, and with the last of a job the completion
counter receives its add. The chunk sizes are R141's and the frames R140's, the frames that policy 1 or 2 leaves equal ordered as
policy 0 has it (log entry 96). -/
def Sys2Proof.Claims.JobsAndChunks : Prop :=
  ∀ (s : State) (rest : List Msg) (n p l : Nat) (j : Job),
    let without : State := { s with msgs := rest }
    let key := ctlKey (jobQueueOff p l)
    (s.queueOcc key = 0 → Gives (.jobCardPop p l) s s) ∧
    (p < 64 → l < 48 → (s.part p).live = true → s.dev.ready.getLsbD 4 = true → s.electing = false → s.jobs = [] →
      s.queueOcc key ≠ 0 → s.replayOn = false → ∀ u a,
        (s.carried (.drain 0) key 0 false).objStep { who := .drain 0 } key (.pop true) = (u, some a) → a.code = 0 →
      let from_ := s.popOrigin key
      let v := (u.carried (.drain 0) key 64 true).cardRead p l a.payload
      (v.checkCard p l a.payload from_ = none → Gives (.jobCardPop p l) s (v.refuseCard p l a.payload from_)) ∧
      (v.checkCard p l a.payload from_ = some j → Gives (.jobCardPop p l) s (v.acceptCard j))) ∧
    (∀ home, s.msgs = .cardWake j.id 0 home :: rest → s.replayOn = false → without.jobAt j.id = some j → j.status = .waiting →
      Gives (.cardWaitWake 0) s (without.admitJob j)) ∧
    (s.activeSet p l = [] → Gives (.dealChunk p l) s s ∧ Gives (.gangDeal p l) s s) ∧
    (∀ fs u, s.activeSet p l = [j] → j.gang = true → s.electing = false → s.dev.ready.getLsbD 4 = true →
      s.replayOn = false → s.held p + j.count ≤ (s.part p).ceiling.toNat →
      (s.gangSpace j fun m => s.forChunk p l m) ≠ [] →
      s.gangFrames j (s.gangSpace j fun m => s.forChunk p l m) j.count [] = some fs → s.dealGang j fs = some u →
      Gives (.gangDeal p l) s u ∧ ∀ m ∈ fs, (u.frameAt m).status = .loading ∧ (u.frameAt m).job = some j.id ∧
        (u.frameAt m).records = 1 ∧ (u.frameAt m).pc = j.entry) ∧
    (∀ h, s.activeSet p l = [j] → j.gang = false → s.electing = false → s.dev.ready.getLsbD 4 = true →
      s.replayOn = false → s.pickFrame j (fun m => s.dealable j m && s.forChunk p l m) = some n →
      s.freeHandle = some h → h < 2 ^ 20 → j.redeal = [] →
      ∃ t, Gives (.dealChunk p l) s t ∧ (t.frameAt n).status = .loading ∧ (t.frameAt n).handle.toNat = h ∧
        (t.frameAt n).pc = j.entry ∧ (t.frameAt n).first = j.dealt ∧ (t.frameAt n).records = j.chunkSize ∧
        (t.frameAt n).asid = j.asid ∧ (t.ctxAt h).state = .resident ∧ (t.ctxAt h).frame = n ∧
        tblGet? t.turns (64 * p + l) = some j.order ∧ ∃ i ∈ t.jobs, i.id = j.id ∧ i.order = j.order ∧
          i.dealt = j.dealt + j.chunkSize ∧ i.running = j.running + 1) ∧
    (j.dropped = false → 1 ≤ j.eligible → ∃ q, j.count - j.dealt ≤ 2 * j.eligible * q ∧
      2 * j.eligible * q < j.count - j.dealt + 2 * j.eligible ∧
      j.chunkSize = min (j.count - j.dealt) (max j.minChunk q)) ∧
    (∀ ok : Nat → Bool,
      let free (m : Nat) : Prop := m / 4 < 4096 ∧ coreExists (m / 4) = true ∧ (s.frameAt m).status = .empty ∧
        (s.quadAt (quadOf (m / 4))).resetting = false ∧ s.fenced.getLsbD (dieOf (m / 4)) = false ∧ ok m = true ∧
        (∀ q, j.policy = 3 → j.quad = some q → quadOf (m / 4) = q)
      let mine (m : Nat) : Nat := s.inQuad j.id (quadOf (m / 4))
      let best (m : Nat) (from_ : Nat → Prop) : Prop := free m ∧ from_ m ∧ ∀ k, free k → from_ k →
        s.occupied (m / 4) < s.occupied (k / 4) ∨ (s.occupied (m / 4) = s.occupied (k / 4) ∧ m ≤ k)
      let full (m : Nat) : Prop := 0 < mine m ∧ ∀ k, mine k ≤ mine m
      (j.policy = 3 → ∀ q, j.quad = some q → ∃ c, coreExists c = true ∧ q = quadOf c) →
      ((∀ m, ¬free m) → s.pickFrame j ok = none) ∧
      (∀ m, s.pickFrame j ok = some m →
        (j.policy ≠ 1 → j.policy ≠ 2 → best m fun _ => True) ∧
        (j.policy = 1 → (∃ k, free k ∧ mine k = 0) → best m fun k => mine k = 0) ∧
        (j.policy = 1 → (∀ k, free k → mine k ≠ 0) → best m fun _ => True) ∧
        (j.policy = 2 → (∃ k, free k ∧ full k) → best m full) ∧
        (j.policy = 2 → (∀ k, free k → ¬full k) → best m fun _ => True)) ∧
      ((∃ m, free m) → s.pickFrame j ok ≠ none)) ∧
    (∀ i, s.activeSet p l = [i, j] → tblGet? s.turns (64 * p + l) = some i.order → i.order < j.order → s.inTurn p l = [j, i]) ∧
    ((s.frameAt n).status = .loading → (s.frameAt n).job = some j.id → s.jobAt j.id = some j → j.refines = false →
      ∃ t, Gives (.chunkLoadComplete n) s t ∧
        let f := t.frameAt n
        (∀ k : Fin 4, f.pwb[k] = j.windows.getD (2 * k.val) 0 ∧ f.pws[k] = j.windows.getD (2 * k.val + 1) 0) ∧
        (j.layoutCount = 0 ∨ (s.frameAt n).layoutJob = some j.id → t.mem = s.mem) ∧
        (j.layoutCount ≠ 0 → (s.frameAt n).layoutJob ≠ some j.id → s.mem.wf = true →
          let area := localKey (n / 4) (0x4F000 + 0x400 * (n % 4))
          t.mem.read area j.layouts.length = j.layouts ∧ SameOutside s t area j.layouts.length) ∧
        f.layoutJob = (if j.layoutCount = 0 then none else some j.id) ∧
        f.status = .ready ∧ f.getS 2 = .ofNat 64 (0x60000 - n % 4 * 0x4000) ∧ f.getS 3 = .ofNat 64 (s.frameAt n).first ∧
        f.getS 4 = .ofNat 64 (s.frameAt n).records ∧
        f.getS 5 = j.argBase + .ofNat 64 ((s.frameAt n).first * j.recordSize) ∧
        f.getS 6 = .ofNat 64 (s.frameAt n).rank.toNat ∧ f.getS 7 = 0 ∧
        (∀ r : SReg, r.toNat < 2 ∨ 7 < r.toNat → f.getS r = 0) ∧ (t.coreAt (n / 4)).l1 = []) ∧
    (∀ first records, s.msgs = .chunkEnd j.id first records true :: rest → s.jobs = [j] → j.status = .active →
      s.recording = false → s.replayOn = false → j.refines = false →
      (1 < j.running → Gives (.chunkEnd 0) s
        { s with msgs := rest, jobs := [{ j with running := j.running - 1, abandoned := j.abandoned + 1 }] }) ∧
      (j.running = 1 → j.allDealt = true → j.completion ≠ 0 → Gives (.chunkEnd 0) s
        { s with jobs := [], msgs := rest ++ [.agentAdd j.completion j.asid 1 (j.abandoned + 1 + j.marks) none
          (distributorEndpoint s.master.toNat) j.id] })) ∧
    (∀ first records, s.msgs = .chunkEnd j.id first records false :: rest → s.jobs = [j] → j.status = .active →
      s.recording = false → s.replayOn = false →
      (1 < j.running → Gives (.chunkEnd 0) s { s with msgs := rest, jobs := [{ j with running := j.running - 1 }] }) ∧
      (j.running = 1 → j.allDealt = true → j.refines = false → j.completion ≠ 0 → Gives (.chunkEnd 0) s
        { s with jobs := [], msgs := rest ++ [.agentAdd j.completion j.asid 1 (j.abandoned + j.marks) none
          (distributorEndpoint s.master.toNat) j.id] }))

/-- R145 to R148, R318 to R323: a context whose quantum ends with no work waiting runs on; a frame told to stop that may
be saved is written to its record and left EMPTY, its context RUNNABLE; a restored context is resident in its new
frame with its PC and scalar registers as the record holds them and the chunk that it was dealt, where no frame is held from it for a
waiting gang; a gang is restored as a whole, a frame for each of its contexts, and waits for the end of its drain. -/
def Sys2Proof.Claims.ContextSwitches : Prop :=
  ∀ (s : State) (n h : Nat),
    let f := s.frameAt n
    (s.waitingFor n f.part.toNat f.level.toNat = false → Gives (.quantExpiry n) s s) ∧
    (f.status = .ready → f.quantum ≠ 0 → f.stopping = none → s.inGang n = false →
      s.waitingFor n f.part.toNat f.level.toNat = true → ∃ t, Gives (.quantExpiry n) s t ∧
        (t.frameAt n).stopping = some 0x18 ∧ t.mem = s.mem) ∧
    (f.stopping = some 0x18 → f.savable = true → s.inGang n = false → f.status = .ready → f.stopFor = [] →
      ∃ t, Gives (.switchOut n) s t ∧ (t.frameAt n).status = .empty ∧
        (t.ctxAt f.handle.toNat).state = .runnable ∧ (t.ctxAt f.handle.toNat).swcause = 0x18 ∧
        (t.ctxAt f.handle.toNat).frame = n ∧ (t.coreAt (n / 4)).owner ≠ some (.ofNat 2 n)) ∧
    (∀ g, (s.ctxAt h).image = some g → s.electing = false → s.mayRestore h n = true →
      let w := (g.part.toNat, g.level.toNat)
      s.choice n = some w →
      (s.gangOf h = none → s.firstSaved n w = some h → (s.ctxAt h).tmma = none →
        ∃ t, Gives (.contextRestore h n) s t ∧ (t.ctxAt h).state = .resident ∧
        (t.ctxAt h).frame = n ∧ (t.frameAt n).pc = s.recordWord h 8 ∧ (t.frameAt n).job = g.job ∧
        (t.frameAt n).first = g.first ∧ (t.frameAt n).records = g.records ∧ (t.frameAt n).status = g.status ∧
        (∀ r : SReg, r ≠ 0 → (t.frameAt n).getS r = s.recordWord h (0x40 + 8 * r.toNat)) ∧
        (t.coreAt (n / 4)).l1 = []) ∧
      (∀ j ps, s.gangOf h = some j → s.gangPlaces (s.gangContexts j.id) = some ps → (s.ctxs.map (·.1)).Nodup →
        (∀ e ∈ ps, s.yields e.2 w = true ∧ ∀ x, s.firstSaved e.2 w = some x → (s.gangOf x).map (·.id) = some j.id) →
        ∃ t, Gives (.contextRestore h n) s t ∧ (∀ e ∈ ps, (t.ctxAt e.1).state = .resident ∧ (t.ctxAt e.1).frame = e.2 ∧
          (t.frameAt e.2).job = some j.id) ∧ ∀ i ∈ t.jobs, i.id = j.id → i.gangFrames = ps.map (·.2))) ∧
    (∀ g : Job, ∀ f0 : Frame, (s.ctxAt h).image = some f0 → g ∈ s.jobs → g.gangWaits = true → g.part = f0.part →
      f0.level.toNat < g.level.toNat → s.admits g n = true → Gives (.contextRestore h n) s s) ∧
    ((s.ctxAt h).image = none → Gives (.contextRestore h n) s s) ∧
    (∀ j, s.jobAt n = some j → j.drain = some 0 → s.jobs = [j] →
      (∀ m, m ∈ j.gangFrames → (s.frameAt m).job = some n → (s.frameAt m).savable = true) →
      (∀ m ∈ j.gangFrames, (s.frameAt m).drainc = 0) →
      Gives (.gangSwitch n) s { s with jobs := [{ j with drain := some 1 }] }) ∧
    (∀ j, s.jobAt n = some j → j.drain = none → Gives (.gangDrainTimeout n) s s) ∧
    (∀ j, s.jobAt n = some j → j.drainRt = false → Gives (.gangDrainTimeout n) s s) ∧
    (∀ j, s.jobs = [j] → j.id = n → j.drain = some 1 → j.drainRt = true →
      ((∀ m ∈ j.gangFrames, (s.frameAt m).job ≠ some n) → s.waits = [] → s.heldDrain n = false →
        Gives (.gangDrainTimeout n) s { s with jobs := [{ j with drain := none, drainRt := false }] }) ∧
      (∀ m ∈ j.gangFrames, (s.frameAt m).job = some n → (s.frameAt m).savable = false →
        Gives (.gangDrainTimeout n) s { s with jobs := [{ j with drain := some 2 }] }))

/-- R139 to R151, R318 to R323: cards, chunks and the saving and restoring of contexts.
The model's choice, no rule of the spec, where it rests on log entries 10, 35, 41, 42, 44, 86, 87, 96, 97, 99 and 130. -/
def Obligations.JobsChunksAndSwitches : Prop :=
  JobsAndChunks ∧ ContextSwitches

/-! ### The control region, the host and bring-up -/

/-- R235, R340, R361 to R364, R367 to R372: register writes, mapping commands, partitions, bring-up, firmware, freeze,
recording and replay. A partition that holds nothing is removed with its queues; an image that passes its checks goes to every slice,
each between its extension calls; a report that the host has asked for says the nonce, DEV and every measurement, signed.
The model's choice, no rule of the spec, where it rests on log entries 13, 15, 43, 55, 57, 58, 59, 60, 64, 121 and 122. -/
def Obligations.ControlRegion : Prop :=
  ∀ (s : State) (w : Word) (n : Nat),
    let d := s.dev
    let m := s.mapcmd
    let own := distributorEndpoint s.master.toNat
    let bit : BitVec 16 := 1 <<< n
    let queues := (List.range 48).map fun l => ctlKey (jobQueueOff n l)
    Gives (.registerWrite 0x0C0050 w) s { s with dev := { d with budget := w } } ∧
    Gives (.registerWrite 0x0C0058 w) s { s with dev := { d with timeout := w } } ∧
    Gives (.registerWrite 0x060000 w) s { s with mapcmd := { m with op := w } } ∧
    Gives (.registerWrite 0x060008 w) s { s with mapcmd := { m with page := w } } ∧
    (m.running = false → Gives (.registerWrite 0x060010 w) s
      { s with mapcmd := { m with counter := w, counterAsid := 0, running := true, done := false, curOp := m.op, curPage := m.page } }) ∧
    (d.ready.getLsbD 4 = true → Gives (.registerWrite 0x0C00B0 w) s s) ∧
    (d.ready.getLsbD 4 = false →
      Gives (.registerWrite 0x0C00B0 w) s { s with dev := { d with asidRoot := w &&& 0xFFFFFFFF0000 } }) ∧
    (m.running = true → m.done = false → m.valid = true → mapUnits m.curOp = 1 →
      let u := m.curPage.toNat / 65536
      (s.unitBusy u = true → m.curOp.toNat % 4 = 1 →
        Gives .mapcmdMap s { s with mapcmd := { m with done := true, outcome := 7 } }) ∧
      (s.unitBusy u = false → m.curOp.toNat % 4 = 1 → ∃ t, Gives .mapcmdMap s t ∧
        tblGet? t.pages u = some (mapKind m.curOp) ∧ t.mapcmd = { m with done := true, outcome := 0 } ∧ t.mem = s.mem) ∧
      (s.unitBusy u = false → m.curOp.toNat % 4 = 2 → ∃ t, Gives .mapcmdUnmap s t ∧
        tblGet? t.pages u = some .plain ∧ t.mapcmd = { m with done := true, outcome := 0 } ∧ t.mem = s.mem)) ∧
    (m.running = true → m.valid = true → m.done = true → m.held = [] → Gives .mapcmdComplete s
      { s with mapcmd := { m with running := false, done := false, status := m.outcome },
               msgs := s.msgs ++ [.agentAdd m.counter m.counterAsid 1 (decide (m.outcome ≠ 0)).toNat none own 0] }) ∧
    (m.running = true → m.valid = false → m.held = [] → Gives .mapcmdComplete s
      { s with mapcmd := { m with running := false, done := false, status := 9 },
               msgs := s.msgs ++ [.agentAdd m.counter m.counterAsid 1 1 none own 0] }) ∧
    ((s.part n).live = true → Gives (.partitionCreate n) s s) ∧
    ((s.part n).live = false → Gives (.partitionRemove n) s s) ∧
    (n < 64 → (s.part n).live = false →
      let us := (levelPages 0 ((s.part n).qstore.toNat / 65536) (s.part n).levels.toList).flatMap fun e =>
        (List.range e.2.2.pages).map (e.2.1 + ·)
      (us.any (fun u => Config.capacity < (u + 1) * 65536) = true → Gives (.partitionCreate n) s
        (s.putPart n { s.part n with err := true })) ∧
      (us.all (fun u => (u + 1) * 65536 ≤ Config.capacity && (tblGet? s.bound u).isNone &&
          tblGet? s.pages u != some .object) = true →
        ∃ t, Gives (.partitionCreate n) s t ∧ (t.part n).live = true ∧ (t.part n).levels = (s.part n).levels)) ∧
    (n < 64 → (s.part n).live = true → (s.partHeld n = true ∨ ∃ q ∈ queues, s.queueOcc q ≠ 0) → Gives (.partitionRemove n) s
      (s.putPart n { s.part n with err := true })) ∧
    (n < 64 → (s.part n).live = true → s.partHeld n = false →
      (∀ q ∈ queues, s.queueOcc q = 0 ∧ (s.cellGet q 3 1).testBit 0 = false ∧ s.waitsOf q = []) → s.mem.wf = true →
      ∃ t, Gives (.partitionRemove n) s t ∧ (t.part n).live = false ∧ (t.part n).levels = (s.part n).levels ∧
        (∀ q ∈ queues, t.cellTag q = 0 ∧ ∀ e ∈ t.bound, e.2.1 ≠ q) ∧ (∀ k, k ≠ n → t.part k = s.part k) ∧ t.frames = s.frames) ∧
    Gives .powerOnReset s { State.reset with freeCtr := s.freeCtr } ∧
    (n < 11 → d.failed.getLsbD n = false → ∀ bad,
      (bad = true ∨ bootFails n = true → n ≠ 5 → Gives (.functionReady n bad) s
        { s with dev := { d with failed := d.failed ||| bit, ready := d.ready &&& ~~~bit } }) ∧
      (bad = false → bootFails n = false → d.ready.getLsbD n = false →
        ((∃ o, o < 11 ∧ o ≠ n ∧ Config.dependsOn n o = true ∧ d.ready.getLsbD o = false) → Gives (.functionReady n bad) s s) ∧
        ((∀ o, o < 11 → o ≠ n → Config.dependsOn n o = true → d.ready.getLsbD o = true) →
          (n ≠ 5 → n ≠ 9 → Gives (.functionReady n bad) s { s with dev := { d with ready := d.ready ||| bit } }) ∧
          (n = 9 → ∃ t, Gives (.functionReady n bad) s t ∧ t.dev = { d with ready := d.ready ||| bit } ∧ t.mem = s.mem ∧
            ∀ k, k < Config.sliceCount → t.sliceAt k = (s.sliceAt k).booted)))) ∧
    (n < 11 → d.failed.getLsbD n = true → ∀ bad, Gives (.functionReady n bad) s s) ∧
    (let at_ := d.fwAddr.toNat
     let size := 128 + Config.imageBodyLength (s.mem.read at_ 128) + 96
     let image := s.mem.read at_ size
     let fits := at_ % 32 = 0 ∧ at_ + size ≤ Config.capacity ∧ extensionOk image = true
     let ends (i : Instr) (status marks : Nat) : Prop := ∃ t, Gives i s t ∧ t.dev.fwStatus.toNat = status ∧ t.dev.fwRunning = false ∧
        t.dev.fwLeft = [] ∧ t.msgs = s.msgs ++ [.agentAdd d.fwcnt d.fwAsid 1 marks none own 0]
     (d.fwRunning = true → d.fwLeft = [] →
       (d.ready.getLsbD 9 = true → fits → imageSigned image = true → Gives .firmwareLoad s
         { s with dev := { d with fwLeft := List.range Config.sliceCount, fwImage := image } }) ∧
       (d.fwHeld = [] →
         (d.ready.getLsbD 9 = false → ends .firmwareLoad 7 1) ∧
         (d.ready.getLsbD 9 = true → ¬fits → ends .firmwareLoad 9 1) ∧
         (d.ready.getLsbD 9 = true → fits → imageSigned image = false → ends .firmwareLoad 15 1))) ∧
     ((∀ k ∈ d.fwLeft, (s.sliceAt k).extensionBusy = true) → Gives .controlStoreInstall s s) ∧
     (∀ busy rest, d.fwLeft = busy ++ n :: rest → (∀ k ∈ busy, (s.sliceAt k).extensionBusy = true) →
       (s.sliceAt n).extensionBusy = false → (s.sliceAt n).input = [] →
       (d.fwLeft.filter (· ≠ n) ≠ [] → Gives .controlStoreInstall s
         { s.putSlice n ((s.sliceAt n).installed d.fwImage) with dev := { d with fwLeft := d.fwLeft.filter (· ≠ n) } }) ∧
       (d.fwLeft.filter (· ≠ n) = [] → d.fwHeld = [] → ends .controlStoreInstall 0 0 ∧
         ∃ t, Gives .controlStoreInstall s t ∧ t.sliceAt n = (s.sliceAt n).installed d.fwImage ∧
           t.dev.measures = d.measures ++ [sha384 d.fwImage]))) ∧
    (d.attestAsked = true → d.ready.getLsbD 8 = true →
      let body := s.mem.read reportAt 48 ++ leBytes 8 s.devNum ++ (loadedAtBoot.map sha384 ++ d.measures).flatMap id
      let number := (Config.freeValue 384 s.freeCtr).toNat % (curveN - 1) + 1
      let bytes := body ++ signMessage (Config.identityKey % (curveN - 1) + 1) number body
      ∃ t, t.dev = { d with attestAsked := false } ∧ t.frames = s.frames ∧ t.msgs = s.msgs ∧
        (s.mem.wf = true → SameOutside s t reportAt bytes.length ∧
          ∀ i (h : i < bytes.length), t.mem.get (reportAt + i) = bytes[i]) ∧
        Gives .attestReport s (t.physicalAdd (s.mem.value (reportAt + 48) 8))) ∧
    (d.attestAsked = false ∨ d.ready.getLsbD 8 = false → Gives .attestReport s s) ∧
    Gives .freeze s { s with dev := { d with freezeReq := true, frozen := true } } ∧
    Gives .resume s { s with dev := { d with freezeReq := false, frozen := false } } ∧
    (d.trctl.getLsbD 0 = false → Gives .traceRecordEnable s
      { s with dev := { d with trctl := d.trctl ||| 1, traceCount := 0, traceJob := s.nextJob, traced := [], tracedJobs := [] } }) ∧
    (d.trctl.getLsbD 2 = false → ∃ t, Gives .replayEnable s t ∧ t.dev.trctl = d.trctl ||| 4 ∧ t.mem = s.mem ∧
      t.dev.traced = (t.dev.traceRecords.filterMap recordCell).eraseDups) ∧
    (d.trctl.getLsbD 2 = false → Gives .replayDivergence s s) ∧
    (d.trctl.getLsbD 2 = true → d.ready.getLsbD 10 = true → ∃ t, Gives .replayDivergence s t ∧ t.dev.trctl = d.trctl &&& ~~~4 ||| 8)

/-- R357 to R360: the host's reads and writes of device memory, its request window, and the answers to its requests.
The model's choice, no rule of the spec, where it rests on log entries 15, 59 and 68. -/
def Obligations.HostRequests : Prop :=
  ∀ (s : State) (off len k : Nat) (data : List Byte),
    let x := s.slotAt k
    let freed (u : State) : State := u.putHostSlot k {}
    let answered (u : State) (a : Answer) (tag : Nat) : State :=
      if x.field 24 8 = 0 then freed u else
        { freed u with hostOut := u.hostOut ++ [.reply (.ofNat 64 (x.field 24 8)) (hostReply x k a tag)] }
    (off + len ≤ Config.capacity →
      ∃ t, Gives (.hostBar4Read off len) s t ∧ t.hostOut = s.hostOut ++ [.read (s.mem.read off len)] ∧
        t = { s with hostOut := t.hostOut, lines := t.lines }) ∧
    (Config.capacity < off + len →
      Gives (.hostBar4Read off len) s { s with hostOut := s.hostOut ++ [.unsupported] }) ∧
    (Config.capacity < off + data.length → Gives (.hostBar4Write off data) s
      { s with dev := { s.dev with hosterr := s.dev.hosterr + 1 } }) ∧
    (off + data.length ≤ Config.capacity → s.onMarkedPage off data.length = true → ∃ t,
      Gives (.hostBar4Write off data) s t ∧ t.mem = s.mem ∧ t.dev.hosterr = s.dev.hosterr + 1) ∧
    (off + data.length ≤ Config.capacity → s.onMarkedPage off data.length = false → s.mem.wf = true → ∃ t,
      Gives (.hostBar4Write off data) s t ∧ SameOutside s t off data.length ∧
      (∀ i (h : i < data.length), t.mem.get (off + i) = data[i]) ∧
      (off ≤ reportAt + 55 → reportAt + 55 < off + data.length → t.dev.attestAsked = true)) ∧
    (slotCount * slotBytes ≤ off → Gives (.hostBar2Write off data) s s) ∧
    (∀ b, off = slotBytes * k → k < slotCount → x.busy = false → x.bytes = [] → ∃ t,
      Gives (.hostBar2Write off [b]) s t ∧ (t.slotAt k).busy = false ∧ (t.slotAt k).bytes = [(0, b)] ∧ t.mem = s.mem) ∧
    (∀ b, off = slotBytes * k → k < slotCount → x.busy = true → Gives (.hostBar2Write off [b]) s
      { s with dev := { s.dev with hosterr := s.dev.hosterr + 1 } }) ∧
    (x.busy = true → s.oldestSlot x = true → x.field 24 8 % 32 = 0 → x.field 1 3 = 0 → x.field 32 32 = 0 →
      ∀ op cell, x.op = some op → s.hostCell x = some cell → s.replayOn = false →
      let runs (i : Instr) : Prop :=
        (s.hostReady cell = false → Gives i s (answered s { status := 7 } 0)) ∧
        (s.hostReady cell = true → s.notObject cell op = true → Gives i s (answered s { status := 14 } 0)) ∧
        (∀ u a, s.hostReady cell = true → s.notObject cell op = false →
          s.objStep { who := .drain 0 } cell op = (u, some a) → a.trap = none → op ≠ .query →
          Gives i s (answered u a 0)) ∧
        (∀ u a, s.hostReady cell = true → s.notObject cell op = false →
          s.objStep { who := .drain 0 } cell op = (u, some a) → a.trap = none → op = .query →
          Gives i s (answered u { a with status := 0 } a.status))
      (x.field 0 1 = 0 → runs (.hostBqpushNw k)) ∧ (x.field 0 1 = 1 → runs (.hostCntadd k)) ∧
      (x.field 0 1 = 2 → runs (.hostCntwaitNw k)) ∧ (x.field 0 1 = 3 → runs (.hostOquery k)))

/-! ### The whole machine -/

/-- R22, R73, R83 to R86, R93: an instruction that may run ahead of a repetition answers a next state in which only its
frame has changed, and there only S[d], the PC (or the repetition's place), the prediction stack, and of FCSR flag bits
that it raises; one of page 0 leaves FCSR alone. -/
def Obligations.ScalarFrame : Prop :=
  ∀ (i : Instr) (s : State), runsAhead i = true → ∃ t, Gives i s t ∧
    t = s.putFr { s.fr with s := t.fr.s, fcsr := t.fr.fcsr, pc := t.fr.pc, ras := t.fr.ras, rep := t.fr.rep,
                            poisonS := t.fr.poisonS } ∧
    (∀ r, scalarDest i ≠ some r → t.fr.getS r = s.fr.getS r) ∧
    (∀ k, t.fr.fcsr.getLsbD k = true → s.fr.fcsr.getLsbD k = true ∨ (8 ≤ k ∧ k < 13)) ∧
    (∀ k, s.fr.fcsr.getLsbD k = true → t.fr.fcsr.getLsbD k = true) ∧
    (¬onPage 1 i → t.fr.fcsr = s.fr.fcsr)

/-- R25, R36, R131, R136: when the frame that its core issues next holds in its core's fetch buffer halfwords at its PC that decode
to a well-formed instruction, and nothing holds the group or poisons what it reads, a step executes that instruction in the
state that is before it, but for the flags that its quad's union has shown (R72), the model's own latch of the group, and the
matrix bank that nobody owns, which a matrix group finds as its own (R133); during a capture it captures it there (R124).
The model's choice, no rule of the spec, where it rests on log entries 5, 31, 72 and 73. -/
def Obligations.StepRunsDecodedGroup : Prop :=
  ∀ (s : State) (n : Nat) (rest : List Turn) (hs : List Half) (i : Instr),
    let f := s.frameAt n
    let c := s.coreAt (n / 4)
    let q := quadOf (n / 4)
    s.stopped = false → s.dev.frozen = false → s.agenda = .issue n :: rest → s.chosenFrame (n / 4) = some n →
    f.status = .issuing → f.asyncReady = false → f.repRunning = false → f.replay = none → s.replaying n = false →
    f.fenceLoads = [] → f.fenceStores = [] → f.late = [] →
    f.poisonS = 0 → f.poisonV = 0 → f.poisonP = 0 →
    decode hs = some (i, hs.length) → i.wf = true →
    (∀ k, k < 2 * hs.length → ∃ pa line, s.fetchPlace n (f.pc + .ofNat 64 k) = .ok pa ∧
      tblGet? c.fetchBuffer (pa / 32) = some line ∧
      some (line.getD (pa % 32) 0) = (hs.flatMap fun h => leBytes 2 h.toNat)[k]?) →
    ∃ (quads : Tbl Quad) (hist : List (Word × Option Nat)),
      (∀ k, k ≠ q → tblGet? quads k = tblGet? s.quads k) ∧
      (tblGet? quads q).getD {} = { s.quadAt q with flagHist := hist } ∧
      (let e := executing s n rest { len := hs.length, base := hs.getD (hs.length - 1) 0, pc := f.pc } quads
       let u := if isMatrixGroup i && f.admits i && c.owner.isNone && c.swapQueue.isEmpty then e.bankIn n else e.usedBank n
       (f.capture = none → (u.coreAt (n / 4)).poisonT = 0 → (u.coreAt (n / 4)).poisonA = 0 → step s = exec i u) ∧
       ∀ x, f.capture = some x → step s = (e.usedBank n).captureGroup i x)

/-- R26 to R34, R49: words that the spec writes out decode to the instructions that it names. -/
def Obligations.DecodesSpecWords : Prop :=
  decode [0xB39A#16] = some (.bne 3 4 (-6), 1) ∧
  decode [0xE822#16] = some (.ret 1, 1) ∧
  decode [0xFA21#16, 0xF8A8#16, 0x1028#16] = some (.fma .f64 8 9 10, 3) ∧
  decode [0xFA52#16, 0x0394#16] = some (.vadd true .i16 3 4 5 0, 2) ∧
  decode [0xFA60#16, 0x0958#16] = some (.tmma 1 2 6, 2) ∧
  decode [0xFA60#16, 0x220A#16] = some (.rpt 2 10, 2) ∧
  decode [0xFA80#16, 0xF940#16, 0x1043#16] = some (.stg 16 18 0 3 {}, 3) ∧
  decode [0xF02B#16, 0xF1E2#16, 0xF357#16, 0xF4DE#16, 0x7DF0#16] = some (.li 5 0x56789ABCDEF0#64, 5) ∧
  decode [0xF012#16, 0x8534#16] = some (.lih 5 0x1234#64, 2) ∧
  decode [0x0000#16] = some (.udf 0 0, 1)

/-- R25 to R34, R49: for every well-formed instruction and every value of its operands, decoding its halfwords gives it
back and its length; and whatever halfwords decode to is well-formed, or is UDF or no instruction. -/
def Obligations.DecodingAndEncodingAgree : Prop :=
  (∀ i : Instr, i.wf = true → decode (encode i) = some (i, (encode i).length)) ∧
  (∀ (hs : List Half) (i : Instr) (n : Nat), decode hs = some (i, n) →
    i.wf = true ∨ (∃ h p, i = .udf h p ∨ i = .nonInstructionPattern h p))

/-- R236: every step keeps memory in its canonical form: addresses rising, each listed once, none listed with the value
that it would have unlisted. So equal memories are equal lists whatever has run.
The model's choice, no rule of the spec, where it rests on log entry 2. -/
def Obligations.MemoryStaysCanonical : Prop :=
  ∀ s t : State, s.mem.wf = true → step s = .next t → t.mem.wf = true

/-- R8, R13, R133, R334, R361, R364, R369: right after reset no frame holds a context, no core's matrix bank has an owner, no
partition lives, no function is READY and nothing has been written to memory. A device that has stopped does nothing
more (R334); a FROZEN one takes none of its own turns and issues no group (R369).
The model's choice, no rule of the spec, where it rests on log entries 1, 2 and 3. -/
def Obligations.ResetAndStandstill : Prop :=
  (∀ n, (State.reset.frameAt n).status = .empty) ∧
  (∀ c, (State.reset.coreAt c).owner = none ∧ (State.reset.coreAt c).tiles = Vector.replicate 8 (Vector.replicate 2048 0)) ∧
  (∀ p, (State.reset.part p).live = false) ∧
  (∀ h, (State.reset.ctxAt h).state = .free) ∧
  State.reset.dev.ready = 0 ∧ State.reset.mem = [] ∧ State.reset.mem.wf = true ∧ State.reset.stopped = false ∧
  (∀ s : State, s.stopped = true → step s = .fault .deviceStopped) ∧
  (∀ s : State, s.stopped = false → s.dev.frozen = true → s.agenda = [] → step s = .next s) ∧
  (∀ (s : State) (n : Nat) (rest : List Turn), s.stopped = false → s.dev.frozen = true → s.agenda = .issue n :: rest →
    step s = .next { s with agenda := rest })

/-- R117, R121, R234, R312, R315, R316, R324: where the matrix and system instructions complete with their own effect: AADD,
ACVT and ACVT.V for an owner of the matrix bank; ERET, HNDSET, CTXSAVE, CTXLOAD and TLBINV in S; TRAP and a pending
asynchronous trap in U with a handler. Their results are stated whole above.
The model's choice, no rule of the spec, where it rests on log entries 44, 69, 74 and 131. -/
def Obligations.SystemFormsComplete : Prop :=
  ∀ (f : Fmt) (d : TReg) (da a : AReg) (vd : VReg) (ra rb rd : SReg) (mode : BitVec 2) (n : BitVec 8) (k : Nat) (s : State),
    let retires (i : Instr) : Prop := ∃ t, exec i s = .next t ∧ t.fr.pc = (past s s.fr).pc ∧ t.fr.rep = (past s s.fr).rep ∧
      t.fr.inS = s.fr.inS ∧ t.mem = s.mem ∧ t.msgs = s.msgs
    let parks (i : Instr) (keeps : Bool) : Prop := ∃ t, exec i s = .next t ∧ t.fr.status = .parked ∧ t.fr.parkedOn = .slice ∧
      t.fr.parkD = rd ∧ t.fr.pc = pcAfter s ∧ t.fr.inS = true ∧ (keeps = true → t.mem = s.mem)
    (hasBank s → retires (.aadd da a) ∧
      (f ∈ [Fmt.bf16, .f16, .t8, .t6] → retires (.acvt f d a mode)) ∧
      (f ∈ [Fmt.bf16, .f16, .f32, .t8, .t6] → retires (.acvtV f vd a ra))) ∧
    (s.issue.inRep = false → s.fr.inS = true →
      (∃ t, exec .eret s = .next t ∧ t.fr.inS = false ∧ t.fr.s = s.fr.s ∧ t.mem = s.mem) ∧
      parks (.hndset rd ra rb) true ∧
      (s.fr.complete = true → (s.rs rb).toNat ≤ 1 → (s.ctxAt (s.rs ra).toNat).state ≠ .resident →
        parks (.ctxsave rd ra rb) false ∧ parks (.ctxload rd ra rb) false) ∧
      (s.fr.complete = true → s.postedOut = false → s.unitsOut = false → retires (.tlbinv rd ra rb))) ∧
    (s.issue.inRep = false → s.issue.len ≤ 5 → s.fr.inS = false → s.fr.hndbase.toNat % 65536 ≠ 0 → ∃ t, exec (.trap n) s = .next t ∧
      t.fr.inS = true ∧ t.fr.trapval = n.setWidth 64 ∧ t.fr.trapc.toNat % 2 ^ 16 = 0x0C ∧ t.mem = s.mem) ∧
    (let x := s.frameAt k
     x.status = .ready ∨ x.status = .issuing → x.stopping = none → x.asyncReady = true →
      (∀ e ∈ x.pendJournal, e.1 < 16) → x.hndbase.toNat % 65536 ≠ 0 →
      ∃ t, exec (.asyncTrap k) s = .next t ∧ (t.frameAt k).inS = true ∧ (t.frameAt k).trappc = x.pc ∧ t.mem = s.mem)

/-- R5, R236, R308: no form ends a run: in every state every instruction and every event of the core, the engines, the
fabric, the distributor, the host and bring-up answers a next state, and memory in its canonical form stays so.
The model's choice, no rule of the spec, where it rests on log entries 8 and 78. -/
def Obligations.EveryFormAnswers : Prop :=
  (∀ (i : Instr) (s : State), ∃ t, exec i s = .next t ∧ (s.mem.wf = true → t.mem.wf = true)) ∧
  (∀ (n k va : Nat) (v : Word) (bs : List Byte) (failed : Bool) (bits : BitVec 16) (p : Packet) (s : State),
    ∀ i ∈ [Instr.registerWrite n v, .asyncTrap n, .fetchBlock n, .fetchAge n k, .issueRotation n, .rptIterationIssue n,
      .tmmaComplete n, .matrixResidueError n, .matrixBankExchange n, .bankHoldExpiry n, .quantExpiry n, .jobCardPop n k,
      .cardWaitWake n, .dealChunk n k, .gangDeal n k, .chunkLoadComplete n, .chunkEnd n, .objectReply n,
      .wakeSavedContext n, .spillRingWake n, .agentCntadd n, .parentArrival n, .parentCompleteWake n, .cvLockRelease n,
      .cvMovedAcquire n, .lockAbandon n, .waiterRemoval n, .deadContextMessage n, .settleAdd n, .refirePush n,
      .refireLost n, .distributorVcack n, .vcNotice n, .homeStorePerform n, .loadReply n, .storeAck n, .storeRefusal n,
      .pageWalk n k va, .mapcmdMap, .mapcmdUnmap, .mapcmdComplete, .meshCrcReplay n, .meshBeacon n, .copyBlockStart n k,
      .copyCommandComplete n k, .copyBlockComplete n k, .copyFault n k, .cpytRowWrite n, .busCycle n, .mossCallStart n,
      .mossCallComplete n, .budgetExpiry n, .switchOut n, .contextRestore n k, .gangSwitch n, .gangDrainTimeout n,
      .quadReset n, .correctableError n, .uncorrectableError n, .dieFence n, .masterElection, .fabricPacketArrival p,
      .windowRevoked n, .fabricAck p, .fabricRefusal p, .linkCrcFail n, .linkReplayRequest n k, .linkSilenceTimeout n,
      .linkBeacon n, .endToEndTimeout n, .purgeMarker p, .purged p, .purgeTimeout n, .transferWaitWake n,
      .transferComplete n k, .transferError n k, .multicastFork n, .combineArrival n, .collectiveAbort n, .portRetrain n,
      .hostBar4Read n k, .hostBar4Write n bs, .hostBqpushNw n, .hostCntadd n, .hostCntwaitNw n, .hostOquery n,
      .partitionCreate n, .partitionRemove n, .jrnstFree n v, .faultaClear n v, .arrfltClear n v, .powerOnReset,
      .functionReady n failed, .firmwareLoad, .controlStoreInstall, .attestReport, .freeze, .resume, .traceRecordEnable,
      .replayEnable, .replayDivergence, .thermalThrottle bits, .hostBar2Write n bs, .linkPacketReceive n p,
      .quadResetComplete n],
    ∃ t, exec i s = .next t ∧ (s.stopped = false → t.stopped = false ∨ t.ports.all (·.failed) = true))

end ClaimsOfTheModel
end

