-- ==== Sys2Proof/Laws/Frame.lean ====
section
/-! SUPPORT. What a register write of a frame leaves alone, one lemma per field, and what each register reads after it. -/

namespace Sys2Proof.Machine

variable (f : Frame)

/-! ### Frame.setS -/

@[simp] theorem Frame.setS_status (r : SReg) (w : Word) : (f.setS r w).status = f.status := by unfold Frame.setS; split <;> rfl
@[simp] theorem Frame.setS_pc (r : SReg) (w : Word) : (f.setS r w).pc = f.pc := by unfold Frame.setS; split <;> rfl
@[simp] theorem Frame.setS_p (r : SReg) (w : Word) : (f.setS r w).p = f.p := by unfold Frame.setS; split <;> rfl
@[simp] theorem Frame.setS_v (r : SReg) (w : Word) : (f.setS r w).v = f.v := by unfold Frame.setS; split <;> rfl
@[simp] theorem Frame.setS_fcsr (r : SReg) (w : Word) : (f.setS r w).fcsr = f.fcsr := by unfold Frame.setS; split <;> rfl
@[simp] theorem Frame.setS_fmta (r : SReg) (w : Word) : (f.setS r w).fmta = f.fmta := by unfold Frame.setS; split <;> rfl
@[simp] theorem Frame.setS_fmtb (r : SReg) (w : Word) : (f.setS r w).fmtb = f.fmtb := by unfold Frame.setS; split <;> rfl
@[simp] theorem Frame.setS_scla (r : SReg) (w : Word) : (f.setS r w).scla = f.scla := by unfold Frame.setS; split <;> rfl
@[simp] theorem Frame.setS_sclb (r : SReg) (w : Word) : (f.setS r w).sclb = f.sclb := by unfold Frame.setS; split <;> rfl
@[simp] theorem Frame.setS_tags (r : SReg) (w : Word) : (f.setS r w).tags = f.tags := by unfold Frame.setS; split <;> rfl
@[simp] theorem Frame.setS_tagerr (r : SReg) (w : Word) : (f.setS r w).tagerr = f.tagerr := by unfold Frame.setS; split <;> rfl
@[simp] theorem Frame.setS_tagsPending (r : SReg) (w : Word) : (f.setS r w).tagsPending = f.tagsPending := by unfold Frame.setS; split <;> rfl
@[simp] theorem Frame.setS_pwb (r : SReg) (w : Word) : (f.setS r w).pwb = f.pwb := by unfold Frame.setS; split <;> rfl
@[simp] theorem Frame.setS_pws (r : SReg) (w : Word) : (f.setS r w).pws = f.pws := by unfold Frame.setS; split <;> rfl
@[simp] theorem Frame.setS_expw (r : SReg) (w : Word) : (f.setS r w).expw = f.expw := by unfold Frame.setS; split <;> rfl
@[simp] theorem Frame.setS_windowsOpen (r : SReg) (w : Word) : (f.setS r w).windowsOpen = f.windowsOpen := by unfold Frame.setS; split <;> rfl
@[simp] theorem Frame.setS_quantum (r : SReg) (w : Word) : (f.setS r w).quantum = f.quantum := by unfold Frame.setS; split <;> rfl
@[simp] theorem Frame.setS_drainc (r : SReg) (w : Word) : (f.setS r w).drainc = f.drainc := by unfold Frame.setS; split <;> rfl
@[simp] theorem Frame.setS_watch (r : SReg) (w : Word) : (f.setS r w).watch = f.watch := by unfold Frame.setS; split <;> rfl
@[simp] theorem Frame.setS_faulta (r : SReg) (w : Word) : (f.setS r w).faulta = f.faulta := by unfold Frame.setS; split <;> rfl
@[simp] theorem Frame.setS_faultb (r : SReg) (w : Word) : (f.setS r w).faultb = f.faultb := by unfold Frame.setS; split <;> rfl
@[simp] theorem Frame.setS_arrflt (r : SReg) (w : Word) : (f.setS r w).arrflt = f.arrflt := by unfold Frame.setS; split <;> rfl
@[simp] theorem Frame.setS_trapc (r : SReg) (w : Word) : (f.setS r w).trapc = f.trapc := by unfold Frame.setS; split <;> rfl
@[simp] theorem Frame.setS_trappc (r : SReg) (w : Word) : (f.setS r w).trappc = f.trappc := by unfold Frame.setS; split <;> rfl
@[simp] theorem Frame.setS_trapval (r : SReg) (w : Word) : (f.setS r w).trapval = f.trapval := by unfold Frame.setS; split <;> rfl
@[simp] theorem Frame.setS_hndbase (r : SReg) (w : Word) : (f.setS r w).hndbase = f.hndbase := by unfold Frame.setS; split <;> rfl
@[simp] theorem Frame.setS_hnddata (r : SReg) (w : Word) : (f.setS r w).hnddata = f.hnddata := by unfold Frame.setS; split <;> rfl
@[simp] theorem Frame.setS_tscr0 (r : SReg) (w : Word) : (f.setS r w).tscr0 = f.tscr0 := by unfold Frame.setS; split <;> rfl
@[simp] theorem Frame.setS_tscr1 (r : SReg) (w : Word) : (f.setS r w).tscr1 = f.tscr1 := by unfold Frame.setS; split <;> rfl
@[simp] theorem Frame.setS_journal (r : SReg) (w : Word) : (f.setS r w).journal = f.journal := by unfold Frame.setS; split <;> rfl
@[simp] theorem Frame.setS_pendJournal (r : SReg) (w : Word) : (f.setS r w).pendJournal = f.pendJournal := by unfold Frame.setS; split <;> rfl
@[simp] theorem Frame.setS_pendCopy (r : SReg) (w : Word) : (f.setS r w).pendCopy = f.pendCopy := by unfold Frame.setS; split <;> rfl
@[simp] theorem Frame.setS_pendArray (r : SReg) (w : Word) : (f.setS r w).pendArray = f.pendArray := by unfold Frame.setS; split <;> rfl
@[simp] theorem Frame.setS_pendFabric (r : SReg) (w : Word) : (f.setS r w).pendFabric = f.pendFabric := by unfold Frame.setS; split <;> rfl
@[simp] theorem Frame.setS_locks (r : SReg) (w : Word) : (f.setS r w).locks = f.locks := by unfold Frame.setS; split <;> rfl
@[simp] theorem Frame.setS_parkedOn (r : SReg) (w : Word) : (f.setS r w).parkedOn = f.parkedOn := by unfold Frame.setS; split <;> rfl
@[simp] theorem Frame.setS_parkPc (r : SReg) (w : Word) : (f.setS r w).parkPc = f.parkPc := by unfold Frame.setS; split <;> rfl
@[simp] theorem Frame.setS_parkLen (r : SReg) (w : Word) : (f.setS r w).parkLen = f.parkLen := by unfold Frame.setS; split <;> rfl
@[simp] theorem Frame.setS_parkD (r : SReg) (w : Word) : (f.setS r w).parkD = f.parkD := by unfold Frame.setS; split <;> rfl
@[simp] theorem Frame.setS_parkVd (r : SReg) (w : Word) : (f.setS r w).parkVd = f.parkVd := by unfold Frame.setS; split <;> rfl
@[simp] theorem Frame.setS_parkKind (r : SReg) (w : Word) : (f.setS r w).parkKind = f.parkKind := by unfold Frame.setS; split <;> rfl
@[simp] theorem Frame.setS_handle (r : SReg) (w : Word) : (f.setS r w).handle = f.handle := by unfold Frame.setS; split <;> rfl
@[simp] theorem Frame.setS_part (r : SReg) (w : Word) : (f.setS r w).part = f.part := by unfold Frame.setS; split <;> rfl
@[simp] theorem Frame.setS_level (r : SReg) (w : Word) : (f.setS r w).level = f.level := by unfold Frame.setS; split <;> rfl
@[simp] theorem Frame.setS_asid (r : SReg) (w : Word) : (f.setS r w).asid = f.asid := by unfold Frame.setS; split <;> rfl
@[simp] theorem Frame.setS_cls (r : SReg) (w : Word) : (f.setS r w).cls = f.cls := by unfold Frame.setS; split <;> rfl
@[simp] theorem Frame.setS_rank (r : SReg) (w : Word) : (f.setS r w).rank = f.rank := by unfold Frame.setS; split <;> rfl
@[simp] theorem Frame.setS_job (r : SReg) (w : Word) : (f.setS r w).job = f.job := by unfold Frame.setS; split <;> rfl
@[simp] theorem Frame.setS_first (r : SReg) (w : Word) : (f.setS r w).first = f.first := by unfold Frame.setS; split <;> rfl
@[simp] theorem Frame.setS_records (r : SReg) (w : Word) : (f.setS r w).records = f.records := by unfold Frame.setS; split <;> rfl
@[simp] theorem Frame.setS_layoutJob (r : SReg) (w : Word) : (f.setS r w).layoutJob = f.layoutJob := by unfold Frame.setS; split <;> rfl
@[simp] theorem Frame.setS_ownedMatrix (r : SReg) (w : Word) : (f.setS r w).ownedMatrix = f.ownedMatrix := by unfold Frame.setS; split <;> rfl
@[simp] theorem Frame.setS_capture (r : SReg) (w : Word) : (f.setS r w).capture = f.capture := by unfold Frame.setS; split <;> rfl
@[simp] theorem Frame.setS_rep (r : SReg) (w : Word) : (f.setS r w).rep = f.rep := by unfold Frame.setS; split <;> rfl
@[simp] theorem Frame.setS_ras (r : SReg) (w : Word) : (f.setS r w).ras = f.ras := by unfold Frame.setS; split <;> rfl
@[simp] theorem Frame.setS_pins (r : SReg) (w : Word) : (f.setS r w).pins = f.pins := by unfold Frame.setS; split <;> rfl
@[simp] theorem Frame.setS_poisonP (r : SReg) (w : Word) : (f.setS r w).poisonP = f.poisonP := by unfold Frame.setS; split <;> rfl
@[simp] theorem Frame.setS_poisonV (r : SReg) (w : Word) : (f.setS r w).poisonV = f.poisonV := by unfold Frame.setS; split <;> rfl
@[simp] theorem Frame.setS_stamp (r : SReg) (w : Word) : (f.setS r w).stamp = f.stamp := by unfold Frame.setS; split <;> rfl
@[simp] theorem Frame.setS_fenceLoads (r : SReg) (w : Word) : (f.setS r w).fenceLoads = f.fenceLoads := by unfold Frame.setS; split <;> rfl
@[simp] theorem Frame.setS_fenceStores (r : SReg) (w : Word) : (f.setS r w).fenceStores = f.fenceStores := by unfold Frame.setS; split <;> rfl
@[simp] theorem Frame.setS_fenceClear (r : SReg) (w : Word) : (f.setS r w).fenceClear = f.fenceClear := by unfold Frame.setS; split <;> rfl
@[simp] theorem Frame.setS_late (r : SReg) (w : Word) : (f.setS r w).late = f.late := by unfold Frame.setS; split <;> rfl
@[simp] theorem Frame.setS_seen (r : SReg) (w : Word) : (f.setS r w).seen = f.seen := by unfold Frame.setS; split <;> rfl
@[simp] theorem Frame.setS_tagLines (r : SReg) (w : Word) : (f.setS r w).tagLines = f.tagLines := by unfold Frame.setS; split <;> rfl
@[simp] theorem Frame.setS_stopping (r : SReg) (w : Word) : (f.setS r w).stopping = f.stopping := by unfold Frame.setS; split <;> rfl
@[simp] theorem Frame.setS_stopFor (r : SReg) (w : Word) : (f.setS r w).stopFor = f.stopFor := by unfold Frame.setS; split <;> rfl
@[simp] theorem Frame.setS_replay (r : SReg) (w : Word) : (f.setS r w).replay = f.replay := by unfold Frame.setS; split <;> rfl

/-! ### Frame.setP -/

@[simp] theorem Frame.setP_status (r : PReg) (w : Word) : (f.setP r w).status = f.status := by unfold Frame.setP; split <;> rfl
@[simp] theorem Frame.setP_pc (r : PReg) (w : Word) : (f.setP r w).pc = f.pc := by unfold Frame.setP; split <;> rfl
@[simp] theorem Frame.setP_s (r : PReg) (w : Word) : (f.setP r w).s = f.s := by unfold Frame.setP; split <;> rfl
@[simp] theorem Frame.setP_v (r : PReg) (w : Word) : (f.setP r w).v = f.v := by unfold Frame.setP; split <;> rfl
@[simp] theorem Frame.setP_fcsr (r : PReg) (w : Word) : (f.setP r w).fcsr = f.fcsr := by unfold Frame.setP; split <;> rfl
@[simp] theorem Frame.setP_fmta (r : PReg) (w : Word) : (f.setP r w).fmta = f.fmta := by unfold Frame.setP; split <;> rfl
@[simp] theorem Frame.setP_fmtb (r : PReg) (w : Word) : (f.setP r w).fmtb = f.fmtb := by unfold Frame.setP; split <;> rfl
@[simp] theorem Frame.setP_scla (r : PReg) (w : Word) : (f.setP r w).scla = f.scla := by unfold Frame.setP; split <;> rfl
@[simp] theorem Frame.setP_sclb (r : PReg) (w : Word) : (f.setP r w).sclb = f.sclb := by unfold Frame.setP; split <;> rfl
@[simp] theorem Frame.setP_tags (r : PReg) (w : Word) : (f.setP r w).tags = f.tags := by unfold Frame.setP; split <;> rfl
@[simp] theorem Frame.setP_tagerr (r : PReg) (w : Word) : (f.setP r w).tagerr = f.tagerr := by unfold Frame.setP; split <;> rfl
@[simp] theorem Frame.setP_tagsPending (r : PReg) (w : Word) : (f.setP r w).tagsPending = f.tagsPending := by unfold Frame.setP; split <;> rfl
@[simp] theorem Frame.setP_pwb (r : PReg) (w : Word) : (f.setP r w).pwb = f.pwb := by unfold Frame.setP; split <;> rfl
@[simp] theorem Frame.setP_pws (r : PReg) (w : Word) : (f.setP r w).pws = f.pws := by unfold Frame.setP; split <;> rfl
@[simp] theorem Frame.setP_expw (r : PReg) (w : Word) : (f.setP r w).expw = f.expw := by unfold Frame.setP; split <;> rfl
@[simp] theorem Frame.setP_windowsOpen (r : PReg) (w : Word) : (f.setP r w).windowsOpen = f.windowsOpen := by unfold Frame.setP; split <;> rfl
@[simp] theorem Frame.setP_quantum (r : PReg) (w : Word) : (f.setP r w).quantum = f.quantum := by unfold Frame.setP; split <;> rfl
@[simp] theorem Frame.setP_drainc (r : PReg) (w : Word) : (f.setP r w).drainc = f.drainc := by unfold Frame.setP; split <;> rfl
@[simp] theorem Frame.setP_watch (r : PReg) (w : Word) : (f.setP r w).watch = f.watch := by unfold Frame.setP; split <;> rfl
@[simp] theorem Frame.setP_faulta (r : PReg) (w : Word) : (f.setP r w).faulta = f.faulta := by unfold Frame.setP; split <;> rfl
@[simp] theorem Frame.setP_faultb (r : PReg) (w : Word) : (f.setP r w).faultb = f.faultb := by unfold Frame.setP; split <;> rfl
@[simp] theorem Frame.setP_arrflt (r : PReg) (w : Word) : (f.setP r w).arrflt = f.arrflt := by unfold Frame.setP; split <;> rfl
@[simp] theorem Frame.setP_trapc (r : PReg) (w : Word) : (f.setP r w).trapc = f.trapc := by unfold Frame.setP; split <;> rfl
@[simp] theorem Frame.setP_trappc (r : PReg) (w : Word) : (f.setP r w).trappc = f.trappc := by unfold Frame.setP; split <;> rfl
@[simp] theorem Frame.setP_trapval (r : PReg) (w : Word) : (f.setP r w).trapval = f.trapval := by unfold Frame.setP; split <;> rfl
@[simp] theorem Frame.setP_hndbase (r : PReg) (w : Word) : (f.setP r w).hndbase = f.hndbase := by unfold Frame.setP; split <;> rfl
@[simp] theorem Frame.setP_hnddata (r : PReg) (w : Word) : (f.setP r w).hnddata = f.hnddata := by unfold Frame.setP; split <;> rfl
@[simp] theorem Frame.setP_tscr0 (r : PReg) (w : Word) : (f.setP r w).tscr0 = f.tscr0 := by unfold Frame.setP; split <;> rfl
@[simp] theorem Frame.setP_tscr1 (r : PReg) (w : Word) : (f.setP r w).tscr1 = f.tscr1 := by unfold Frame.setP; split <;> rfl
@[simp] theorem Frame.setP_journal (r : PReg) (w : Word) : (f.setP r w).journal = f.journal := by unfold Frame.setP; split <;> rfl
@[simp] theorem Frame.setP_pendJournal (r : PReg) (w : Word) : (f.setP r w).pendJournal = f.pendJournal := by unfold Frame.setP; split <;> rfl
@[simp] theorem Frame.setP_pendCopy (r : PReg) (w : Word) : (f.setP r w).pendCopy = f.pendCopy := by unfold Frame.setP; split <;> rfl
@[simp] theorem Frame.setP_pendArray (r : PReg) (w : Word) : (f.setP r w).pendArray = f.pendArray := by unfold Frame.setP; split <;> rfl
@[simp] theorem Frame.setP_pendFabric (r : PReg) (w : Word) : (f.setP r w).pendFabric = f.pendFabric := by unfold Frame.setP; split <;> rfl
@[simp] theorem Frame.setP_locks (r : PReg) (w : Word) : (f.setP r w).locks = f.locks := by unfold Frame.setP; split <;> rfl
@[simp] theorem Frame.setP_parkedOn (r : PReg) (w : Word) : (f.setP r w).parkedOn = f.parkedOn := by unfold Frame.setP; split <;> rfl
@[simp] theorem Frame.setP_parkPc (r : PReg) (w : Word) : (f.setP r w).parkPc = f.parkPc := by unfold Frame.setP; split <;> rfl
@[simp] theorem Frame.setP_parkLen (r : PReg) (w : Word) : (f.setP r w).parkLen = f.parkLen := by unfold Frame.setP; split <;> rfl
@[simp] theorem Frame.setP_parkD (r : PReg) (w : Word) : (f.setP r w).parkD = f.parkD := by unfold Frame.setP; split <;> rfl
@[simp] theorem Frame.setP_parkVd (r : PReg) (w : Word) : (f.setP r w).parkVd = f.parkVd := by unfold Frame.setP; split <;> rfl
@[simp] theorem Frame.setP_parkKind (r : PReg) (w : Word) : (f.setP r w).parkKind = f.parkKind := by unfold Frame.setP; split <;> rfl
@[simp] theorem Frame.setP_handle (r : PReg) (w : Word) : (f.setP r w).handle = f.handle := by unfold Frame.setP; split <;> rfl
@[simp] theorem Frame.setP_part (r : PReg) (w : Word) : (f.setP r w).part = f.part := by unfold Frame.setP; split <;> rfl
@[simp] theorem Frame.setP_level (r : PReg) (w : Word) : (f.setP r w).level = f.level := by unfold Frame.setP; split <;> rfl
@[simp] theorem Frame.setP_asid (r : PReg) (w : Word) : (f.setP r w).asid = f.asid := by unfold Frame.setP; split <;> rfl
@[simp] theorem Frame.setP_cls (r : PReg) (w : Word) : (f.setP r w).cls = f.cls := by unfold Frame.setP; split <;> rfl
@[simp] theorem Frame.setP_rank (r : PReg) (w : Word) : (f.setP r w).rank = f.rank := by unfold Frame.setP; split <;> rfl
@[simp] theorem Frame.setP_job (r : PReg) (w : Word) : (f.setP r w).job = f.job := by unfold Frame.setP; split <;> rfl
@[simp] theorem Frame.setP_first (r : PReg) (w : Word) : (f.setP r w).first = f.first := by unfold Frame.setP; split <;> rfl
@[simp] theorem Frame.setP_records (r : PReg) (w : Word) : (f.setP r w).records = f.records := by unfold Frame.setP; split <;> rfl
@[simp] theorem Frame.setP_layoutJob (r : PReg) (w : Word) : (f.setP r w).layoutJob = f.layoutJob := by unfold Frame.setP; split <;> rfl
@[simp] theorem Frame.setP_ownedMatrix (r : PReg) (w : Word) : (f.setP r w).ownedMatrix = f.ownedMatrix := by unfold Frame.setP; split <;> rfl
@[simp] theorem Frame.setP_capture (r : PReg) (w : Word) : (f.setP r w).capture = f.capture := by unfold Frame.setP; split <;> rfl
@[simp] theorem Frame.setP_rep (r : PReg) (w : Word) : (f.setP r w).rep = f.rep := by unfold Frame.setP; split <;> rfl
@[simp] theorem Frame.setP_ras (r : PReg) (w : Word) : (f.setP r w).ras = f.ras := by unfold Frame.setP; split <;> rfl
@[simp] theorem Frame.setP_pins (r : PReg) (w : Word) : (f.setP r w).pins = f.pins := by unfold Frame.setP; split <;> rfl
@[simp] theorem Frame.setP_poisonS (r : PReg) (w : Word) : (f.setP r w).poisonS = f.poisonS := by unfold Frame.setP; split <;> rfl
@[simp] theorem Frame.setP_poisonV (r : PReg) (w : Word) : (f.setP r w).poisonV = f.poisonV := by unfold Frame.setP; split <;> rfl
@[simp] theorem Frame.setP_stamp (r : PReg) (w : Word) : (f.setP r w).stamp = f.stamp := by unfold Frame.setP; split <;> rfl
@[simp] theorem Frame.setP_fenceLoads (r : PReg) (w : Word) : (f.setP r w).fenceLoads = f.fenceLoads := by unfold Frame.setP; split <;> rfl
@[simp] theorem Frame.setP_fenceStores (r : PReg) (w : Word) : (f.setP r w).fenceStores = f.fenceStores := by unfold Frame.setP; split <;> rfl
@[simp] theorem Frame.setP_fenceClear (r : PReg) (w : Word) : (f.setP r w).fenceClear = f.fenceClear := by unfold Frame.setP; split <;> rfl
@[simp] theorem Frame.setP_late (r : PReg) (w : Word) : (f.setP r w).late = f.late := by unfold Frame.setP; split <;> rfl
@[simp] theorem Frame.setP_seen (r : PReg) (w : Word) : (f.setP r w).seen = f.seen := by unfold Frame.setP; split <;> rfl
@[simp] theorem Frame.setP_tagLines (r : PReg) (w : Word) : (f.setP r w).tagLines = f.tagLines := by unfold Frame.setP; split <;> rfl
@[simp] theorem Frame.setP_stopping (r : PReg) (w : Word) : (f.setP r w).stopping = f.stopping := by unfold Frame.setP; split <;> rfl
@[simp] theorem Frame.setP_stopFor (r : PReg) (w : Word) : (f.setP r w).stopFor = f.stopFor := by unfold Frame.setP; split <;> rfl
@[simp] theorem Frame.setP_replay (r : PReg) (w : Word) : (f.setP r w).replay = f.replay := by unfold Frame.setP; split <;> rfl

/-! ### Frame.setV -/

@[simp] theorem Frame.setV_status (r : VReg) (x : VVal) : (f.setV r x).status = f.status := rfl
@[simp] theorem Frame.setV_pc (r : VReg) (x : VVal) : (f.setV r x).pc = f.pc := rfl
@[simp] theorem Frame.setV_s (r : VReg) (x : VVal) : (f.setV r x).s = f.s := rfl
@[simp] theorem Frame.setV_p (r : VReg) (x : VVal) : (f.setV r x).p = f.p := rfl
@[simp] theorem Frame.setV_fcsr (r : VReg) (x : VVal) : (f.setV r x).fcsr = f.fcsr := rfl
@[simp] theorem Frame.setV_fmta (r : VReg) (x : VVal) : (f.setV r x).fmta = f.fmta := rfl
@[simp] theorem Frame.setV_fmtb (r : VReg) (x : VVal) : (f.setV r x).fmtb = f.fmtb := rfl
@[simp] theorem Frame.setV_scla (r : VReg) (x : VVal) : (f.setV r x).scla = f.scla := rfl
@[simp] theorem Frame.setV_sclb (r : VReg) (x : VVal) : (f.setV r x).sclb = f.sclb := rfl
@[simp] theorem Frame.setV_tags (r : VReg) (x : VVal) : (f.setV r x).tags = f.tags := rfl
@[simp] theorem Frame.setV_tagerr (r : VReg) (x : VVal) : (f.setV r x).tagerr = f.tagerr := rfl
@[simp] theorem Frame.setV_tagsPending (r : VReg) (x : VVal) : (f.setV r x).tagsPending = f.tagsPending := rfl
@[simp] theorem Frame.setV_pwb (r : VReg) (x : VVal) : (f.setV r x).pwb = f.pwb := rfl
@[simp] theorem Frame.setV_pws (r : VReg) (x : VVal) : (f.setV r x).pws = f.pws := rfl
@[simp] theorem Frame.setV_expw (r : VReg) (x : VVal) : (f.setV r x).expw = f.expw := rfl
@[simp] theorem Frame.setV_windowsOpen (r : VReg) (x : VVal) : (f.setV r x).windowsOpen = f.windowsOpen := rfl
@[simp] theorem Frame.setV_quantum (r : VReg) (x : VVal) : (f.setV r x).quantum = f.quantum := rfl
@[simp] theorem Frame.setV_drainc (r : VReg) (x : VVal) : (f.setV r x).drainc = f.drainc := rfl
@[simp] theorem Frame.setV_watch (r : VReg) (x : VVal) : (f.setV r x).watch = f.watch := rfl
@[simp] theorem Frame.setV_faulta (r : VReg) (x : VVal) : (f.setV r x).faulta = f.faulta := rfl
@[simp] theorem Frame.setV_faultb (r : VReg) (x : VVal) : (f.setV r x).faultb = f.faultb := rfl
@[simp] theorem Frame.setV_arrflt (r : VReg) (x : VVal) : (f.setV r x).arrflt = f.arrflt := rfl
@[simp] theorem Frame.setV_trapc (r : VReg) (x : VVal) : (f.setV r x).trapc = f.trapc := rfl
@[simp] theorem Frame.setV_trappc (r : VReg) (x : VVal) : (f.setV r x).trappc = f.trappc := rfl
@[simp] theorem Frame.setV_trapval (r : VReg) (x : VVal) : (f.setV r x).trapval = f.trapval := rfl
@[simp] theorem Frame.setV_hndbase (r : VReg) (x : VVal) : (f.setV r x).hndbase = f.hndbase := rfl
@[simp] theorem Frame.setV_hnddata (r : VReg) (x : VVal) : (f.setV r x).hnddata = f.hnddata := rfl
@[simp] theorem Frame.setV_tscr0 (r : VReg) (x : VVal) : (f.setV r x).tscr0 = f.tscr0 := rfl
@[simp] theorem Frame.setV_tscr1 (r : VReg) (x : VVal) : (f.setV r x).tscr1 = f.tscr1 := rfl
@[simp] theorem Frame.setV_journal (r : VReg) (x : VVal) : (f.setV r x).journal = f.journal := rfl
@[simp] theorem Frame.setV_pendJournal (r : VReg) (x : VVal) : (f.setV r x).pendJournal = f.pendJournal := rfl
@[simp] theorem Frame.setV_pendCopy (r : VReg) (x : VVal) : (f.setV r x).pendCopy = f.pendCopy := rfl
@[simp] theorem Frame.setV_pendArray (r : VReg) (x : VVal) : (f.setV r x).pendArray = f.pendArray := rfl
@[simp] theorem Frame.setV_pendFabric (r : VReg) (x : VVal) : (f.setV r x).pendFabric = f.pendFabric := rfl
@[simp] theorem Frame.setV_locks (r : VReg) (x : VVal) : (f.setV r x).locks = f.locks := rfl
@[simp] theorem Frame.setV_parkedOn (r : VReg) (x : VVal) : (f.setV r x).parkedOn = f.parkedOn := rfl
@[simp] theorem Frame.setV_parkPc (r : VReg) (x : VVal) : (f.setV r x).parkPc = f.parkPc := rfl
@[simp] theorem Frame.setV_parkLen (r : VReg) (x : VVal) : (f.setV r x).parkLen = f.parkLen := rfl
@[simp] theorem Frame.setV_parkD (r : VReg) (x : VVal) : (f.setV r x).parkD = f.parkD := rfl
@[simp] theorem Frame.setV_parkVd (r : VReg) (x : VVal) : (f.setV r x).parkVd = f.parkVd := rfl
@[simp] theorem Frame.setV_parkKind (r : VReg) (x : VVal) : (f.setV r x).parkKind = f.parkKind := rfl
@[simp] theorem Frame.setV_handle (r : VReg) (x : VVal) : (f.setV r x).handle = f.handle := rfl
@[simp] theorem Frame.setV_part (r : VReg) (x : VVal) : (f.setV r x).part = f.part := rfl
@[simp] theorem Frame.setV_level (r : VReg) (x : VVal) : (f.setV r x).level = f.level := rfl
@[simp] theorem Frame.setV_asid (r : VReg) (x : VVal) : (f.setV r x).asid = f.asid := rfl
@[simp] theorem Frame.setV_cls (r : VReg) (x : VVal) : (f.setV r x).cls = f.cls := rfl
@[simp] theorem Frame.setV_rank (r : VReg) (x : VVal) : (f.setV r x).rank = f.rank := rfl
@[simp] theorem Frame.setV_job (r : VReg) (x : VVal) : (f.setV r x).job = f.job := rfl
@[simp] theorem Frame.setV_first (r : VReg) (x : VVal) : (f.setV r x).first = f.first := rfl
@[simp] theorem Frame.setV_records (r : VReg) (x : VVal) : (f.setV r x).records = f.records := rfl
@[simp] theorem Frame.setV_layoutJob (r : VReg) (x : VVal) : (f.setV r x).layoutJob = f.layoutJob := rfl
@[simp] theorem Frame.setV_ownedMatrix (r : VReg) (x : VVal) : (f.setV r x).ownedMatrix = f.ownedMatrix := rfl
@[simp] theorem Frame.setV_capture (r : VReg) (x : VVal) : (f.setV r x).capture = f.capture := rfl
@[simp] theorem Frame.setV_rep (r : VReg) (x : VVal) : (f.setV r x).rep = f.rep := rfl
@[simp] theorem Frame.setV_ras (r : VReg) (x : VVal) : (f.setV r x).ras = f.ras := rfl
@[simp] theorem Frame.setV_pins (r : VReg) (x : VVal) : (f.setV r x).pins = f.pins := rfl
@[simp] theorem Frame.setV_poisonS (r : VReg) (x : VVal) : (f.setV r x).poisonS = f.poisonS := rfl
@[simp] theorem Frame.setV_poisonP (r : VReg) (x : VVal) : (f.setV r x).poisonP = f.poisonP := rfl
@[simp] theorem Frame.setV_poisonV (r : VReg) (x : VVal) : (f.setV r x).poisonV = f.poisonV := rfl
@[simp] theorem Frame.setV_stamp (r : VReg) (x : VVal) : (f.setV r x).stamp = f.stamp := rfl
@[simp] theorem Frame.setV_fenceLoads (r : VReg) (x : VVal) : (f.setV r x).fenceLoads = f.fenceLoads := rfl
@[simp] theorem Frame.setV_fenceStores (r : VReg) (x : VVal) : (f.setV r x).fenceStores = f.fenceStores := rfl
@[simp] theorem Frame.setV_fenceClear (r : VReg) (x : VVal) : (f.setV r x).fenceClear = f.fenceClear := rfl
@[simp] theorem Frame.setV_late (r : VReg) (x : VVal) : (f.setV r x).late = f.late := rfl
@[simp] theorem Frame.setV_seen (r : VReg) (x : VVal) : (f.setV r x).seen = f.seen := rfl
@[simp] theorem Frame.setV_tagLines (r : VReg) (x : VVal) : (f.setV r x).tagLines = f.tagLines := rfl
@[simp] theorem Frame.setV_stopping (r : VReg) (x : VVal) : (f.setV r x).stopping = f.stopping := rfl
@[simp] theorem Frame.setV_stopFor (r : VReg) (x : VVal) : (f.setV r x).stopFor = f.stopFor := rfl
@[simp] theorem Frame.setV_replay (r : VReg) (x : VVal) : (f.setV r x).replay = f.replay := rfl

/-! ### Frame.setVAll -/

@[simp] theorem Frame.setVAll_status (r : VReg) (x : VVal) : (f.setVAll r x).status = f.status := rfl
@[simp] theorem Frame.setVAll_pc (r : VReg) (x : VVal) : (f.setVAll r x).pc = f.pc := rfl
@[simp] theorem Frame.setVAll_s (r : VReg) (x : VVal) : (f.setVAll r x).s = f.s := rfl
@[simp] theorem Frame.setVAll_p (r : VReg) (x : VVal) : (f.setVAll r x).p = f.p := rfl
@[simp] theorem Frame.setVAll_fcsr (r : VReg) (x : VVal) : (f.setVAll r x).fcsr = f.fcsr := rfl
@[simp] theorem Frame.setVAll_fmta (r : VReg) (x : VVal) : (f.setVAll r x).fmta = f.fmta := rfl
@[simp] theorem Frame.setVAll_fmtb (r : VReg) (x : VVal) : (f.setVAll r x).fmtb = f.fmtb := rfl
@[simp] theorem Frame.setVAll_scla (r : VReg) (x : VVal) : (f.setVAll r x).scla = f.scla := rfl
@[simp] theorem Frame.setVAll_sclb (r : VReg) (x : VVal) : (f.setVAll r x).sclb = f.sclb := rfl
@[simp] theorem Frame.setVAll_tags (r : VReg) (x : VVal) : (f.setVAll r x).tags = f.tags := rfl
@[simp] theorem Frame.setVAll_tagerr (r : VReg) (x : VVal) : (f.setVAll r x).tagerr = f.tagerr := rfl
@[simp] theorem Frame.setVAll_tagsPending (r : VReg) (x : VVal) : (f.setVAll r x).tagsPending = f.tagsPending := rfl
@[simp] theorem Frame.setVAll_pwb (r : VReg) (x : VVal) : (f.setVAll r x).pwb = f.pwb := rfl
@[simp] theorem Frame.setVAll_pws (r : VReg) (x : VVal) : (f.setVAll r x).pws = f.pws := rfl
@[simp] theorem Frame.setVAll_expw (r : VReg) (x : VVal) : (f.setVAll r x).expw = f.expw := rfl
@[simp] theorem Frame.setVAll_windowsOpen (r : VReg) (x : VVal) : (f.setVAll r x).windowsOpen = f.windowsOpen := rfl
@[simp] theorem Frame.setVAll_quantum (r : VReg) (x : VVal) : (f.setVAll r x).quantum = f.quantum := rfl
@[simp] theorem Frame.setVAll_drainc (r : VReg) (x : VVal) : (f.setVAll r x).drainc = f.drainc := rfl
@[simp] theorem Frame.setVAll_watch (r : VReg) (x : VVal) : (f.setVAll r x).watch = f.watch := rfl
@[simp] theorem Frame.setVAll_faulta (r : VReg) (x : VVal) : (f.setVAll r x).faulta = f.faulta := rfl
@[simp] theorem Frame.setVAll_faultb (r : VReg) (x : VVal) : (f.setVAll r x).faultb = f.faultb := rfl
@[simp] theorem Frame.setVAll_arrflt (r : VReg) (x : VVal) : (f.setVAll r x).arrflt = f.arrflt := rfl
@[simp] theorem Frame.setVAll_trapc (r : VReg) (x : VVal) : (f.setVAll r x).trapc = f.trapc := rfl
@[simp] theorem Frame.setVAll_trappc (r : VReg) (x : VVal) : (f.setVAll r x).trappc = f.trappc := rfl
@[simp] theorem Frame.setVAll_trapval (r : VReg) (x : VVal) : (f.setVAll r x).trapval = f.trapval := rfl
@[simp] theorem Frame.setVAll_hndbase (r : VReg) (x : VVal) : (f.setVAll r x).hndbase = f.hndbase := rfl
@[simp] theorem Frame.setVAll_hnddata (r : VReg) (x : VVal) : (f.setVAll r x).hnddata = f.hnddata := rfl
@[simp] theorem Frame.setVAll_tscr0 (r : VReg) (x : VVal) : (f.setVAll r x).tscr0 = f.tscr0 := rfl
@[simp] theorem Frame.setVAll_tscr1 (r : VReg) (x : VVal) : (f.setVAll r x).tscr1 = f.tscr1 := rfl
@[simp] theorem Frame.setVAll_journal (r : VReg) (x : VVal) : (f.setVAll r x).journal = f.journal := rfl
@[simp] theorem Frame.setVAll_pendJournal (r : VReg) (x : VVal) : (f.setVAll r x).pendJournal = f.pendJournal := rfl
@[simp] theorem Frame.setVAll_pendCopy (r : VReg) (x : VVal) : (f.setVAll r x).pendCopy = f.pendCopy := rfl
@[simp] theorem Frame.setVAll_pendArray (r : VReg) (x : VVal) : (f.setVAll r x).pendArray = f.pendArray := rfl
@[simp] theorem Frame.setVAll_pendFabric (r : VReg) (x : VVal) : (f.setVAll r x).pendFabric = f.pendFabric := rfl
@[simp] theorem Frame.setVAll_locks (r : VReg) (x : VVal) : (f.setVAll r x).locks = f.locks := rfl
@[simp] theorem Frame.setVAll_parkedOn (r : VReg) (x : VVal) : (f.setVAll r x).parkedOn = f.parkedOn := rfl
@[simp] theorem Frame.setVAll_parkPc (r : VReg) (x : VVal) : (f.setVAll r x).parkPc = f.parkPc := rfl
@[simp] theorem Frame.setVAll_parkLen (r : VReg) (x : VVal) : (f.setVAll r x).parkLen = f.parkLen := rfl
@[simp] theorem Frame.setVAll_parkD (r : VReg) (x : VVal) : (f.setVAll r x).parkD = f.parkD := rfl
@[simp] theorem Frame.setVAll_parkVd (r : VReg) (x : VVal) : (f.setVAll r x).parkVd = f.parkVd := rfl
@[simp] theorem Frame.setVAll_parkKind (r : VReg) (x : VVal) : (f.setVAll r x).parkKind = f.parkKind := rfl
@[simp] theorem Frame.setVAll_handle (r : VReg) (x : VVal) : (f.setVAll r x).handle = f.handle := rfl
@[simp] theorem Frame.setVAll_part (r : VReg) (x : VVal) : (f.setVAll r x).part = f.part := rfl
@[simp] theorem Frame.setVAll_level (r : VReg) (x : VVal) : (f.setVAll r x).level = f.level := rfl
@[simp] theorem Frame.setVAll_asid (r : VReg) (x : VVal) : (f.setVAll r x).asid = f.asid := rfl
@[simp] theorem Frame.setVAll_cls (r : VReg) (x : VVal) : (f.setVAll r x).cls = f.cls := rfl
@[simp] theorem Frame.setVAll_rank (r : VReg) (x : VVal) : (f.setVAll r x).rank = f.rank := rfl
@[simp] theorem Frame.setVAll_job (r : VReg) (x : VVal) : (f.setVAll r x).job = f.job := rfl
@[simp] theorem Frame.setVAll_first (r : VReg) (x : VVal) : (f.setVAll r x).first = f.first := rfl
@[simp] theorem Frame.setVAll_records (r : VReg) (x : VVal) : (f.setVAll r x).records = f.records := rfl
@[simp] theorem Frame.setVAll_layoutJob (r : VReg) (x : VVal) : (f.setVAll r x).layoutJob = f.layoutJob := rfl
@[simp] theorem Frame.setVAll_ownedMatrix (r : VReg) (x : VVal) : (f.setVAll r x).ownedMatrix = f.ownedMatrix := rfl
@[simp] theorem Frame.setVAll_capture (r : VReg) (x : VVal) : (f.setVAll r x).capture = f.capture := rfl
@[simp] theorem Frame.setVAll_rep (r : VReg) (x : VVal) : (f.setVAll r x).rep = f.rep := rfl
@[simp] theorem Frame.setVAll_ras (r : VReg) (x : VVal) : (f.setVAll r x).ras = f.ras := rfl
@[simp] theorem Frame.setVAll_pins (r : VReg) (x : VVal) : (f.setVAll r x).pins = f.pins := rfl
@[simp] theorem Frame.setVAll_poisonS (r : VReg) (x : VVal) : (f.setVAll r x).poisonS = f.poisonS := rfl
@[simp] theorem Frame.setVAll_poisonP (r : VReg) (x : VVal) : (f.setVAll r x).poisonP = f.poisonP := rfl
@[simp] theorem Frame.setVAll_stamp (r : VReg) (x : VVal) : (f.setVAll r x).stamp = f.stamp := rfl
@[simp] theorem Frame.setVAll_fenceLoads (r : VReg) (x : VVal) : (f.setVAll r x).fenceLoads = f.fenceLoads := rfl
@[simp] theorem Frame.setVAll_fenceStores (r : VReg) (x : VVal) : (f.setVAll r x).fenceStores = f.fenceStores := rfl
@[simp] theorem Frame.setVAll_fenceClear (r : VReg) (x : VVal) : (f.setVAll r x).fenceClear = f.fenceClear := rfl
@[simp] theorem Frame.setVAll_late (r : VReg) (x : VVal) : (f.setVAll r x).late = f.late := rfl
@[simp] theorem Frame.setVAll_seen (r : VReg) (x : VVal) : (f.setVAll r x).seen = f.seen := rfl
@[simp] theorem Frame.setVAll_tagLines (r : VReg) (x : VVal) : (f.setVAll r x).tagLines = f.tagLines := rfl
@[simp] theorem Frame.setVAll_stopping (r : VReg) (x : VVal) : (f.setVAll r x).stopping = f.stopping := rfl
@[simp] theorem Frame.setVAll_stopFor (r : VReg) (x : VVal) : (f.setVAll r x).stopFor = f.stopFor := rfl
@[simp] theorem Frame.setVAll_replay (r : VReg) (x : VVal) : (f.setVAll r x).replay = f.replay := rfl

/-! ### Registers read after a write (R10) -/

@[simp] theorem Frame.getS_zero : f.getS 0 = 0 := rfl
@[simp] theorem Frame.getP_zero : f.getP 0 = -1 := rfl
@[simp] theorem Frame.setS_zero (w : Word) : f.setS 0 w = f := rfl
@[simp] theorem Frame.setP_zero (w : Word) : f.setP 0 w = f := rfl

theorem Frame.getS_setS_same (r : SReg) (w : Word) (h : r ≠ 0) : (f.setS r w).getS r = w := by
  unfold Frame.getS Frame.setS
  rw [if_neg h, if_neg h]
  simp only [Vector.getElem_set_self]

theorem Frame.getS_setS_other (r q : SReg) (w : Word) (h : q ≠ r) : (f.setS r w).getS q = f.getS q := by
  unfold Frame.setS Frame.getS
  split
  · rfl
  · split
    · rfl
    · simp only
      rw [Vector.getElem_set_ne]
      intro e
      exact h (BitVec.eq_of_toNat_eq e.symm)

theorem Frame.getP_setP_same (r : PReg) (w : Word) (h : r ≠ 0) : (f.setP r w).getP r = w := by
  unfold Frame.getP Frame.setP
  rw [if_neg h, if_neg h]
  simp only [Vector.getElem_set_self]

theorem Frame.getP_setP_other (r q : PReg) (w : Word) (h : q ≠ r) : (f.setP r w).getP q = f.getP q := by
  unfold Frame.setP Frame.getP
  split
  · rfl
  · split
    · rfl
    · simp only
      rw [Vector.getElem_set_ne]
      intro e
      exact h (BitVec.eq_of_toNat_eq e.symm)

theorem Frame.getV_setV_same (r : VReg) (x : VVal) : (f.setV r x).getV r = x := by
  simp [Frame.setV, Frame.getV]

theorem Frame.getV_setV_other (r q : VReg) (x : VVal) (h : q ≠ r) : (f.setV r x).getV q = f.getV q := by
  unfold Frame.setV Frame.getV
  simp only
  rw [Vector.getElem_set_ne]
  intro e
  exact h (BitVec.eq_of_toNat_eq e.symm)

theorem Frame.getV_setVAll (r q : VReg) (x : VVal) : (f.setVAll r x).getV q = (f.setV r x).getV q := rfl

@[simp] theorem Frame.getS_setV (r : VReg) (q : SReg) (x : VVal) : (f.setV r x).getS q = f.getS q := rfl
@[simp] theorem Frame.getS_setVAll (r : VReg) (q : SReg) (x : VVal) : (f.setVAll r x).getS q = f.getS q := rfl
@[simp] theorem Frame.getP_setV (r : VReg) (q : PReg) (x : VVal) : (f.setV r x).getP q = f.getP q := rfl
@[simp] theorem Frame.getP_setVAll (r : VReg) (q : PReg) (x : VVal) : (f.setVAll r x).getP q = f.getP q := rfl
@[simp] theorem Frame.getP_setS (r : SReg) (q : PReg) (w : Word) : (f.setS r w).getP q = f.getP q := by
  unfold Frame.setS; split <;> rfl
@[simp] theorem Frame.getV_setS (r : SReg) (q : VReg) (w : Word) : (f.setS r w).getV q = f.getV q := by
  unfold Frame.setS; split <;> rfl
@[simp] theorem Frame.getS_setP (r : PReg) (q : SReg) (w : Word) : (f.setP r w).getS q = f.getS q := by
  unfold Frame.setP; split <;> rfl
@[simp] theorem Frame.getV_setP (r : PReg) (q : VReg) (w : Word) : (f.setP r w).getV q = f.getV q := by
  unfold Frame.setP; split <;> rfl

end Sys2Proof.Machine
end

