-- ==== Sys2Proof/Laws/Tables.lean ====
section
/-! SUPPORT. Association lists: what is read after one key is set or removed. -/

namespace Sys2Proof

@[simp] theorem tblGet_put_same {α : Type} (l : Tbl α) (k : Nat) (v : α) : tblGet? (tblPut l k v) k = some v := by
  induction l with
  | nil => simp [tblPut, tblGet?]
  | cons e t ih =>
    obtain ⟨k', w⟩ := e
    simp only [tblPut]
    split
    · simp [tblGet?]
    · split
      · simp [tblGet?]
      · rename_i h; simp [tblGet?, Ne.symm h, ih]

theorem tblGet_put_other {α : Type} (l : Tbl α) {k x : Nat} (v : α) (h : x ≠ k) :
    tblGet? (tblPut l k v) x = tblGet? l x := by
  induction l with
  | nil => simp [tblPut, tblGet?, Ne.symm h]
  | cons e t ih =>
    obtain ⟨k', w⟩ := e
    simp only [tblPut]
    split
    · simp [tblGet?, Ne.symm h]
    · split
      · rename_i h2; subst h2; simp [tblGet?, Ne.symm h]
      · simp [tblGet?, ih]

@[simp] theorem tblGet_del_same {α : Type} (l : Tbl α) (k : Nat) : tblGet? (tblDel l k) k = none := by
  induction l with
  | nil => rfl
  | cons e t ih =>
    obtain ⟨k', w⟩ := e
    simp only [tblDel]
    split
    · exact ih
    · simp [tblGet?, *]

theorem tblGet_del_other {α : Type} (l : Tbl α) {k x : Nat} (h : x ≠ k) : tblGet? (tblDel l k) x = tblGet? l x := by
  induction l with
  | nil => rfl
  | cons e t ih =>
    obtain ⟨k', w⟩ := e
    simp only [tblDel]
    split
    · rename_i h2; subst h2; simp [tblGet?, Ne.symm h, ih]
    · simp [tblGet?, ih]

/-- Setting one key twice is setting it once. -/
@[simp] theorem tblPut_put_same {α : Type} (l : Tbl α) (k : Nat) (v w : α) :
    tblPut (tblPut l k v) k w = tblPut l k w := by
  induction l with
  | nil => simp [tblPut]
  | cons e t ih =>
    obtain ⟨k', u⟩ := e
    simp only [tblPut]
    split
    · rename_i h; simp [tblPut]
    · split
      · rename_i h; subst h; simp [tblPut]
      · rename_i h1 h2; simp [tblPut, h1, h2, ih]

end Sys2Proof
end

