-- ==== Sys2Proof/Laws/Memory.lean ====
section
/-! SUPPORT. Memory: what is read after a write, and that every operation on memory keeps its canonical form. -/

namespace Sys2Proof.Machine

/-! ### Read after write -/

theorem Memory.get_set_same (m : Memory) (a : Nat) (b : Byte) (h : m.wf = true) : (m.set a b).get a = b := by
  suffices H : ∀ (m : Memory) n, Memory.above n m = true → (m.set a b).get a = b from H m 0 h
  intro m
  induction m with
  | nil =>
    intro n _
    simp only [Memory.set]
    split
    · rename_i hb; simp [Memory.get, hb]
    · simp [Memory.get]
  | cons e t ih =>
    obtain ⟨k, v⟩ := e
    intro n hn
    simp only [Memory.above, Bool.and_eq_true, decide_eq_true_eq] at hn
    simp only [Memory.set]
    split
    · rename_i h1
      split
      · rename_i hb; simp [Memory.get, h1, hb]
      · simp [Memory.get]
    · split
      · rename_i h1 h2
        subst h2
        split
        · rename_i hb
          subst hb
          cases t with
          | nil => simp [Memory.get]
          | cons e' t' =>
            obtain ⟨k', v'⟩ := e'
            simp only [Memory.above, Bool.and_eq_true, decide_eq_true_eq] at hn
            simp [Memory.get]; omega
        · simp [Memory.get]
      · rename_i h1 h2
        simp only [Memory.get, h1, h2, if_false]
        exact ih _ hn.2

theorem Memory.get_of_above (t : Memory) {a n : Nat} (h : Memory.above n t = true) (ha : a < n) :
    t.get a = resetByte a := by
  cases t with
  | nil => rfl
  | cons e t' =>
    obtain ⟨k', v'⟩ := e
    simp only [Memory.above, Bool.and_eq_true, decide_eq_true_eq] at h
    have : a < k' := by omega
    simp [Memory.get, this]

theorem Memory.get_set_other (m : Memory) {a x : Nat} (b : Byte) (h : m.wf = true) (hx : x ≠ a) :
    (m.set a b).get x = m.get x := by
  suffices H : ∀ (m : Memory) n, Memory.above n m = true → (m.set a b).get x = m.get x from H m 0 h
  intro m
  induction m with
  | nil =>
    intro n _
    simp only [Memory.set]
    split
    · rfl
    · simp [Memory.get]; omega
  | cons e t ih =>
    obtain ⟨k, v⟩ := e
    intro n hn
    simp only [Memory.above, Bool.and_eq_true, decide_eq_true_eq] at hn
    simp only [Memory.set]
    split
    · rename_i h1
      split
      · rfl
      · by_cases h3 : x < a
        · have : x < k := by omega
          simp [Memory.get, h3, this]
        · simp [Memory.get, h3, hx]
    · split
      · rename_i h1 h2
        subst h2
        split
        · by_cases h3 : x < a
          · simp [Memory.get, h3, Memory.get_of_above t hn.2 (by omega : x < a + 1)]
          · simp [Memory.get, h3, hx]
        · simp [Memory.get, hx]
      · rename_i h1 h2
        simp only [Memory.get]
        split
        · rfl
        · split
          · rfl
          · exact ih _ hn.2

/-! ### The canonical form -/

theorem Memory.above_mono {m : Memory} {n k : Nat} (h : Memory.above n m = true) (hk : k ≤ n) :
    Memory.above k m = true := by
  cases m with
  | nil => rfl
  | cons e t =>
    obtain ⟨x, v⟩ := e
    simp only [Memory.above, Bool.and_eq_true, decide_eq_true_eq] at h ⊢
    exact ⟨⟨by omega, h.1.2⟩, h.2⟩

theorem Memory.set_above (m : Memory) {n a : Nat} (b : Byte) (h : Memory.above n m = true) (ha : n ≤ a) :
    Memory.above n (m.set a b) = true := by
  induction m generalizing n with
  | nil =>
    simp only [Memory.set]
    split
    · rfl
    · rename_i hb; simp [Memory.above, ha, hb]
  | cons e t ih =>
    obtain ⟨k, v⟩ := e
    have h' := h
    simp only [Memory.above, Bool.and_eq_true, decide_eq_true_eq] at h'
    simp only [Memory.set]
    split
    · rename_i h1
      split
      · exact h
      · rename_i hb
        simp only [Memory.above, Bool.and_eq_true, decide_eq_true_eq, bne_iff_ne]
        exact ⟨⟨ha, hb⟩, ⟨⟨by omega, by simpa using h'.1.2⟩, h'.2⟩⟩
    · split
      · rename_i h1 h2
        subst h2
        split
        · exact Memory.above_mono h'.2 (by omega)
        · rename_i hb
          simp only [Memory.above, Bool.and_eq_true, decide_eq_true_eq, bne_iff_ne]
          exact ⟨⟨ha, hb⟩, h'.2⟩
      · rename_i h1 h2
        simp only [Memory.above, Bool.and_eq_true, decide_eq_true_eq]
        exact ⟨h'.1, ih h'.2 (by omega)⟩

theorem Memory.set_wf {m : Memory} (a : Nat) (b : Byte) (h : m.wf = true) : (m.set a b).wf = true :=
  m.set_above b h (Nat.zero_le a)

theorem Memory.write_wf {m : Memory} (a : Nat) (bs : List Byte) (h : m.wf = true) : (m.write a bs).wf = true := by
  induction bs generalizing m a with
  | nil => exact h
  | cons b t ih => exact ih _ (Memory.set_wf a b h)

theorem Memory.filter_above (p : Host.Cell → Bool) {m : Memory} {n : Nat} (h : Memory.above n m = true) :
    Memory.above n (m.filter p) = true := by
  induction m generalizing n with
  | nil => rfl
  | cons e t ih =>
    obtain ⟨k, v⟩ := e
    simp only [Memory.above, Bool.and_eq_true, decide_eq_true_eq] at h
    simp only [List.filter]
    split
    · simp only [Memory.above, Bool.and_eq_true, decide_eq_true_eq]
      exact ⟨h.1, ih h.2⟩
    · exact ih (Memory.above_mono h.2 (by omega))

theorem Memory.clear_wf {m : Memory} (lo hi : Nat) (h : m.wf = true) : (m.clear lo hi).wf = true :=
  Memory.filter_above _ h

/-! ### Ranges -/

@[simp] theorem Memory.read_length (m : Memory) (a n : Nat) : (m.read a n).length = n := by
  induction n generalizing a with
  | zero => rfl
  | succ n ih => simp [Memory.read, ih]

/-- A range write leaves every byte outside the range alone. -/
theorem Memory.get_write_outside {m : Memory} {a x : Nat} (bs : List Byte) (h : m.wf = true)
    (hx : x < a ∨ a + bs.length ≤ x) : (m.write a bs).get x = m.get x := by
  induction bs generalizing m a with
  | nil => rfl
  | cons b t ih =>
    simp only [List.length_cons] at hx
    rw [Memory.write, ih (Memory.set_wf a b h) (by omega), Memory.get_set_other m b h (by omega)]

/-- A range write writes each of its bytes. -/
theorem Memory.get_write_inside {m : Memory} {a i : Nat} (bs : List Byte) (h : m.wf = true) (hi : i < bs.length) :
    (m.write a bs).get (a + i) = bs[i] := by
  induction bs generalizing m a i with
  | nil => simp at hi
  | cons b t ih =>
    cases i with
    | zero =>
      rw [Memory.write, Memory.get_write_outside t (Memory.set_wf a b h) (by omega)]
      simpa using Memory.get_set_same m a b h
    | succ i =>
      have := ih (m := m.set a b) (a := a + 1) (i := i) (Memory.set_wf a b h) (by simpa using hi)
      simpa [Memory.write, Nat.add_assoc, Nat.add_comm 1 i] using this

/-- The bytes of a range read, one by one. -/
theorem Memory.read_getElem (m : Memory) {a n i : Nat} (hi : i < n) : (m.read a n)[i]'(by simpa using hi) = m.get (a + i) := by
  induction n generalizing a i with
  | zero => omega
  | succ n ih =>
    cases i with
    | zero => rfl
    | succ i => simpa [Memory.read, Nat.add_assoc, Nat.add_comm 1 i] using ih (a := a + 1) (i := i) (by omega)

/-- A range read after a range write at the same place gives the bytes that were written. -/
theorem Memory.read_write {m : Memory} {a n : Nat} (bs : List Byte) (h : m.wf = true) (hn : n ≤ bs.length) :
    (m.write a bs).read a n = bs.take n := by
  refine List.ext_getElem (by simp [Nat.min_eq_left hn]) fun i h1 h2 => ?_
  have hi : i < n := by simpa using h1
  rw [Memory.read_getElem _ hi, Memory.get_write_inside bs h (by omega), List.getElem_take]

/-! ### Homes -/

/-- What a home write changes: memory, the held lines, and poison. -/
theorem State.homeWrite_eq (s : State) (key : Nat) (bs : List Byte) (h : Hint) :
    s.homeWrite key bs h =
      { s with lines := (s.homeWrite key bs h).lines, mem := s.mem.write key bs, poison := (s.homeWrite key bs h).poison } :=
  rfl

@[simp] theorem State.homeWrite_mem (s : State) (key : Nat) (bs : List Byte) (h : Hint) :
    (s.homeWrite key bs h).mem = s.mem.write key bs := rfl

theorem State.clearRange_wf (s : State) (lo hi : Nat) (h : s.mem.wf = true) : (s.clearRange lo hi).mem.wf = true :=
  Memory.clear_wf lo hi h

theorem State.homeWrite_wf (s : State) (key : Nat) (bs : List Byte) (h : Hint) (hw : s.mem.wf = true) :
    (s.homeWrite key bs h).mem.wf = true := by
  rw [State.homeWrite_mem]; exact Memory.write_wf _ _ hw

end Sys2Proof.Machine
end

