-- ==== Sys2Proof/Laws/State.lean ====
section
/-! SUPPORT. What each update of the state leaves alone, one lemma per field, and what it sets. -/

namespace Sys2Proof.Machine

variable (s : State)

/-! ### State.putFrame -/

@[simp] theorem State.putFrame_cur (n : Nat) (f : Frame) : (s.putFrame n f).cur = s.cur := rfl
@[simp] theorem State.putFrame_issue (n : Nat) (f : Frame) : (s.putFrame n f).issue = s.issue := rfl
@[simp] theorem State.putFrame_agenda (n : Nat) (f : Frame) : (s.putFrame n f).agenda = s.agenda := rfl
@[simp] theorem State.putFrame_freeCtr (n : Nat) (f : Frame) : (s.putFrame n f).freeCtr = s.freeCtr := rfl
@[simp] theorem State.putFrame_mem (n : Nat) (f : Frame) : (s.putFrame n f).mem = s.mem := rfl
@[simp] theorem State.putFrame_lines (n : Nat) (f : Frame) : (s.putFrame n f).lines = s.lines := rfl
@[simp] theorem State.putFrame_tags (n : Nat) (f : Frame) : (s.putFrame n f).tags = s.tags := rfl
@[simp] theorem State.putFrame_pages (n : Nat) (f : Frame) : (s.putFrame n f).pages = s.pages := rfl
@[simp] theorem State.putFrame_bound (n : Nat) (f : Frame) : (s.putFrame n f).bound = s.bound := rfl
@[simp] theorem State.putFrame_cellAsid (n : Nat) (f : Frame) : (s.putFrame n f).cellAsid = s.cellAsid := rfl
@[simp] theorem State.putFrame_steps (n : Nat) (f : Frame) : (s.putFrame n f).steps = s.steps := rfl
@[simp] theorem State.putFrame_refired (n : Nat) (f : Frame) : (s.putFrame n f).refired = s.refired := rfl
@[simp] theorem State.putFrame_poison (n : Nat) (f : Frame) : (s.putFrame n f).poison = s.poison := rfl
@[simp] theorem State.putFrame_eccCorrected (n : Nat) (f : Frame) : (s.putFrame n f).eccCorrected = s.eccCorrected := rfl
@[simp] theorem State.putFrame_cores (n : Nat) (f : Frame) : (s.putFrame n f).cores = s.cores := rfl
@[simp] theorem State.putFrame_quads (n : Nat) (f : Frame) : (s.putFrame n f).quads = s.quads := rfl
@[simp] theorem State.putFrame_slices (n : Nat) (f : Frame) : (s.putFrame n f).slices = s.slices := rfl
@[simp] theorem State.putFrame_waits (n : Nat) (f : Frame) : (s.putFrame n f).waits = s.waits := rfl
@[simp] theorem State.putFrame_msgs (n : Nat) (f : Frame) : (s.putFrame n f).msgs = s.msgs := rfl
@[simp] theorem State.putFrame_parts (n : Nat) (f : Frame) : (s.putFrame n f).parts = s.parts := rfl
@[simp] theorem State.putFrame_jobs (n : Nat) (f : Frame) : (s.putFrame n f).jobs = s.jobs := rfl
@[simp] theorem State.putFrame_turns (n : Nat) (f : Frame) : (s.putFrame n f).turns = s.turns := rfl
@[simp] theorem State.putFrame_nextJob (n : Nat) (f : Frame) : (s.putFrame n f).nextJob = s.nextJob := rfl
@[simp] theorem State.putFrame_nextBlock (n : Nat) (f : Frame) : (s.putFrame n f).nextBlock = s.nextBlock := rfl
@[simp] theorem State.putFrame_ctxs (n : Nat) (f : Frame) : (s.putFrame n f).ctxs = s.ctxs := rfl
@[simp] theorem State.putFrame_combines (n : Nat) (f : Frame) : (s.putFrame n f).combines = s.combines := rfl
@[simp] theorem State.putFrame_fenced (n : Nat) (f : Frame) : (s.putFrame n f).fenced = s.fenced := rfl
@[simp] theorem State.putFrame_master (n : Nat) (f : Frame) : (s.putFrame n f).master = s.master := rfl
@[simp] theorem State.putFrame_electing (n : Nat) (f : Frame) : (s.putFrame n f).electing = s.electing := rfl
@[simp] theorem State.putFrame_stopped (n : Nat) (f : Frame) : (s.putFrame n f).stopped = s.stopped := rfl
@[simp] theorem State.putFrame_dev (n : Nat) (f : Frame) : (s.putFrame n f).dev = s.dev := rfl
@[simp] theorem State.putFrame_mapcmd (n : Nat) (f : Frame) : (s.putFrame n f).mapcmd = s.mapcmd := rfl
@[simp] theorem State.putFrame_mcDropped (n : Nat) (f : Frame) : (s.putFrame n f).mcDropped = s.mcDropped := rfl
@[simp] theorem State.putFrame_windows (n : Nat) (f : Frame) : (s.putFrame n f).windows = s.windows := rfl
@[simp] theorem State.putFrame_flowsOut (n : Nat) (f : Frame) : (s.putFrame n f).flowsOut = s.flowsOut := rfl
@[simp] theorem State.putFrame_flowsIn (n : Nat) (f : Frame) : (s.putFrame n f).flowsIn = s.flowsIn := rfl
@[simp] theorem State.putFrame_ports (n : Nat) (f : Frame) : (s.putFrame n f).ports = s.ports := rfl
@[simp] theorem State.putFrame_links (n : Nat) (f : Frame) : (s.putFrame n f).links = s.links := rfl
@[simp] theorem State.putFrame_remotes (n : Nat) (f : Frame) : (s.putFrame n f).remotes = s.remotes := rfl
@[simp] theorem State.putFrame_nextTag (n : Nat) (f : Frame) : (s.putFrame n f).nextTag = s.nextTag := rfl
@[simp] theorem State.putFrame_stamps (n : Nat) (f : Frame) : (s.putFrame n f).stamps = s.stamps := rfl
@[simp] theorem State.putFrame_slots (n : Nat) (f : Frame) : (s.putFrame n f).slots = s.slots := rfl
@[simp] theorem State.putFrame_hostOut (n : Nat) (f : Frame) : (s.putFrame n f).hostOut = s.hostOut := rfl
@[simp] theorem State.putFrame_msixTable (n : Nat) (f : Frame) : (s.putFrame n f).msixTable = s.msixTable := rfl
@[simp] theorem State.putFrame_msixPending (n : Nat) (f : Frame) : (s.putFrame n f).msixPending = s.msixPending := rfl

/-! ### State.putCore -/

@[simp] theorem State.putCore_cur (n : Nat) (c : Core) : (s.putCore n c).cur = s.cur := rfl
@[simp] theorem State.putCore_issue (n : Nat) (c : Core) : (s.putCore n c).issue = s.issue := rfl
@[simp] theorem State.putCore_agenda (n : Nat) (c : Core) : (s.putCore n c).agenda = s.agenda := rfl
@[simp] theorem State.putCore_freeCtr (n : Nat) (c : Core) : (s.putCore n c).freeCtr = s.freeCtr := rfl
@[simp] theorem State.putCore_mem (n : Nat) (c : Core) : (s.putCore n c).mem = s.mem := rfl
@[simp] theorem State.putCore_lines (n : Nat) (c : Core) : (s.putCore n c).lines = s.lines := rfl
@[simp] theorem State.putCore_tags (n : Nat) (c : Core) : (s.putCore n c).tags = s.tags := rfl
@[simp] theorem State.putCore_pages (n : Nat) (c : Core) : (s.putCore n c).pages = s.pages := rfl
@[simp] theorem State.putCore_bound (n : Nat) (c : Core) : (s.putCore n c).bound = s.bound := rfl
@[simp] theorem State.putCore_cellAsid (n : Nat) (c : Core) : (s.putCore n c).cellAsid = s.cellAsid := rfl
@[simp] theorem State.putCore_steps (n : Nat) (c : Core) : (s.putCore n c).steps = s.steps := rfl
@[simp] theorem State.putCore_refired (n : Nat) (c : Core) : (s.putCore n c).refired = s.refired := rfl
@[simp] theorem State.putCore_poison (n : Nat) (c : Core) : (s.putCore n c).poison = s.poison := rfl
@[simp] theorem State.putCore_eccCorrected (n : Nat) (c : Core) : (s.putCore n c).eccCorrected = s.eccCorrected := rfl
@[simp] theorem State.putCore_frames (n : Nat) (c : Core) : (s.putCore n c).frames = s.frames := rfl
@[simp] theorem State.putCore_quads (n : Nat) (c : Core) : (s.putCore n c).quads = s.quads := rfl
@[simp] theorem State.putCore_slices (n : Nat) (c : Core) : (s.putCore n c).slices = s.slices := rfl
@[simp] theorem State.putCore_waits (n : Nat) (c : Core) : (s.putCore n c).waits = s.waits := rfl
@[simp] theorem State.putCore_msgs (n : Nat) (c : Core) : (s.putCore n c).msgs = s.msgs := rfl
@[simp] theorem State.putCore_parts (n : Nat) (c : Core) : (s.putCore n c).parts = s.parts := rfl
@[simp] theorem State.putCore_jobs (n : Nat) (c : Core) : (s.putCore n c).jobs = s.jobs := rfl
@[simp] theorem State.putCore_turns (n : Nat) (c : Core) : (s.putCore n c).turns = s.turns := rfl
@[simp] theorem State.putCore_nextJob (n : Nat) (c : Core) : (s.putCore n c).nextJob = s.nextJob := rfl
@[simp] theorem State.putCore_nextBlock (n : Nat) (c : Core) : (s.putCore n c).nextBlock = s.nextBlock := rfl
@[simp] theorem State.putCore_ctxs (n : Nat) (c : Core) : (s.putCore n c).ctxs = s.ctxs := rfl
@[simp] theorem State.putCore_combines (n : Nat) (c : Core) : (s.putCore n c).combines = s.combines := rfl
@[simp] theorem State.putCore_fenced (n : Nat) (c : Core) : (s.putCore n c).fenced = s.fenced := rfl
@[simp] theorem State.putCore_master (n : Nat) (c : Core) : (s.putCore n c).master = s.master := rfl
@[simp] theorem State.putCore_electing (n : Nat) (c : Core) : (s.putCore n c).electing = s.electing := rfl
@[simp] theorem State.putCore_stopped (n : Nat) (c : Core) : (s.putCore n c).stopped = s.stopped := rfl
@[simp] theorem State.putCore_dev (n : Nat) (c : Core) : (s.putCore n c).dev = s.dev := rfl
@[simp] theorem State.putCore_mapcmd (n : Nat) (c : Core) : (s.putCore n c).mapcmd = s.mapcmd := rfl
@[simp] theorem State.putCore_mcDropped (n : Nat) (c : Core) : (s.putCore n c).mcDropped = s.mcDropped := rfl
@[simp] theorem State.putCore_windows (n : Nat) (c : Core) : (s.putCore n c).windows = s.windows := rfl
@[simp] theorem State.putCore_flowsOut (n : Nat) (c : Core) : (s.putCore n c).flowsOut = s.flowsOut := rfl
@[simp] theorem State.putCore_flowsIn (n : Nat) (c : Core) : (s.putCore n c).flowsIn = s.flowsIn := rfl
@[simp] theorem State.putCore_ports (n : Nat) (c : Core) : (s.putCore n c).ports = s.ports := rfl
@[simp] theorem State.putCore_links (n : Nat) (c : Core) : (s.putCore n c).links = s.links := rfl
@[simp] theorem State.putCore_remotes (n : Nat) (c : Core) : (s.putCore n c).remotes = s.remotes := rfl
@[simp] theorem State.putCore_nextTag (n : Nat) (c : Core) : (s.putCore n c).nextTag = s.nextTag := rfl
@[simp] theorem State.putCore_stamps (n : Nat) (c : Core) : (s.putCore n c).stamps = s.stamps := rfl
@[simp] theorem State.putCore_slots (n : Nat) (c : Core) : (s.putCore n c).slots = s.slots := rfl
@[simp] theorem State.putCore_hostOut (n : Nat) (c : Core) : (s.putCore n c).hostOut = s.hostOut := rfl
@[simp] theorem State.putCore_msixTable (n : Nat) (c : Core) : (s.putCore n c).msixTable = s.msixTable := rfl
@[simp] theorem State.putCore_msixPending (n : Nat) (c : Core) : (s.putCore n c).msixPending = s.msixPending := rfl

/-! ### State.putQuad -/

@[simp] theorem State.putQuad_cur (n : Nat) (q : Quad) : (s.putQuad n q).cur = s.cur := rfl
@[simp] theorem State.putQuad_issue (n : Nat) (q : Quad) : (s.putQuad n q).issue = s.issue := rfl
@[simp] theorem State.putQuad_agenda (n : Nat) (q : Quad) : (s.putQuad n q).agenda = s.agenda := rfl
@[simp] theorem State.putQuad_freeCtr (n : Nat) (q : Quad) : (s.putQuad n q).freeCtr = s.freeCtr := rfl
@[simp] theorem State.putQuad_mem (n : Nat) (q : Quad) : (s.putQuad n q).mem = s.mem := rfl
@[simp] theorem State.putQuad_lines (n : Nat) (q : Quad) : (s.putQuad n q).lines = s.lines := rfl
@[simp] theorem State.putQuad_tags (n : Nat) (q : Quad) : (s.putQuad n q).tags = s.tags := rfl
@[simp] theorem State.putQuad_pages (n : Nat) (q : Quad) : (s.putQuad n q).pages = s.pages := rfl
@[simp] theorem State.putQuad_bound (n : Nat) (q : Quad) : (s.putQuad n q).bound = s.bound := rfl
@[simp] theorem State.putQuad_cellAsid (n : Nat) (q : Quad) : (s.putQuad n q).cellAsid = s.cellAsid := rfl
@[simp] theorem State.putQuad_steps (n : Nat) (q : Quad) : (s.putQuad n q).steps = s.steps := rfl
@[simp] theorem State.putQuad_refired (n : Nat) (q : Quad) : (s.putQuad n q).refired = s.refired := rfl
@[simp] theorem State.putQuad_poison (n : Nat) (q : Quad) : (s.putQuad n q).poison = s.poison := rfl
@[simp] theorem State.putQuad_eccCorrected (n : Nat) (q : Quad) : (s.putQuad n q).eccCorrected = s.eccCorrected := rfl
@[simp] theorem State.putQuad_frames (n : Nat) (q : Quad) : (s.putQuad n q).frames = s.frames := rfl
@[simp] theorem State.putQuad_cores (n : Nat) (q : Quad) : (s.putQuad n q).cores = s.cores := rfl
@[simp] theorem State.putQuad_slices (n : Nat) (q : Quad) : (s.putQuad n q).slices = s.slices := rfl
@[simp] theorem State.putQuad_waits (n : Nat) (q : Quad) : (s.putQuad n q).waits = s.waits := rfl
@[simp] theorem State.putQuad_msgs (n : Nat) (q : Quad) : (s.putQuad n q).msgs = s.msgs := rfl
@[simp] theorem State.putQuad_parts (n : Nat) (q : Quad) : (s.putQuad n q).parts = s.parts := rfl
@[simp] theorem State.putQuad_jobs (n : Nat) (q : Quad) : (s.putQuad n q).jobs = s.jobs := rfl
@[simp] theorem State.putQuad_turns (n : Nat) (q : Quad) : (s.putQuad n q).turns = s.turns := rfl
@[simp] theorem State.putQuad_nextJob (n : Nat) (q : Quad) : (s.putQuad n q).nextJob = s.nextJob := rfl
@[simp] theorem State.putQuad_nextBlock (n : Nat) (q : Quad) : (s.putQuad n q).nextBlock = s.nextBlock := rfl
@[simp] theorem State.putQuad_ctxs (n : Nat) (q : Quad) : (s.putQuad n q).ctxs = s.ctxs := rfl
@[simp] theorem State.putQuad_combines (n : Nat) (q : Quad) : (s.putQuad n q).combines = s.combines := rfl
@[simp] theorem State.putQuad_fenced (n : Nat) (q : Quad) : (s.putQuad n q).fenced = s.fenced := rfl
@[simp] theorem State.putQuad_master (n : Nat) (q : Quad) : (s.putQuad n q).master = s.master := rfl
@[simp] theorem State.putQuad_electing (n : Nat) (q : Quad) : (s.putQuad n q).electing = s.electing := rfl
@[simp] theorem State.putQuad_stopped (n : Nat) (q : Quad) : (s.putQuad n q).stopped = s.stopped := rfl
@[simp] theorem State.putQuad_dev (n : Nat) (q : Quad) : (s.putQuad n q).dev = s.dev := rfl
@[simp] theorem State.putQuad_mapcmd (n : Nat) (q : Quad) : (s.putQuad n q).mapcmd = s.mapcmd := rfl
@[simp] theorem State.putQuad_mcDropped (n : Nat) (q : Quad) : (s.putQuad n q).mcDropped = s.mcDropped := rfl
@[simp] theorem State.putQuad_windows (n : Nat) (q : Quad) : (s.putQuad n q).windows = s.windows := rfl
@[simp] theorem State.putQuad_flowsOut (n : Nat) (q : Quad) : (s.putQuad n q).flowsOut = s.flowsOut := rfl
@[simp] theorem State.putQuad_flowsIn (n : Nat) (q : Quad) : (s.putQuad n q).flowsIn = s.flowsIn := rfl
@[simp] theorem State.putQuad_ports (n : Nat) (q : Quad) : (s.putQuad n q).ports = s.ports := rfl
@[simp] theorem State.putQuad_links (n : Nat) (q : Quad) : (s.putQuad n q).links = s.links := rfl
@[simp] theorem State.putQuad_remotes (n : Nat) (q : Quad) : (s.putQuad n q).remotes = s.remotes := rfl
@[simp] theorem State.putQuad_nextTag (n : Nat) (q : Quad) : (s.putQuad n q).nextTag = s.nextTag := rfl
@[simp] theorem State.putQuad_stamps (n : Nat) (q : Quad) : (s.putQuad n q).stamps = s.stamps := rfl
@[simp] theorem State.putQuad_slots (n : Nat) (q : Quad) : (s.putQuad n q).slots = s.slots := rfl
@[simp] theorem State.putQuad_hostOut (n : Nat) (q : Quad) : (s.putQuad n q).hostOut = s.hostOut := rfl
@[simp] theorem State.putQuad_msixTable (n : Nat) (q : Quad) : (s.putQuad n q).msixTable = s.msixTable := rfl
@[simp] theorem State.putQuad_msixPending (n : Nat) (q : Quad) : (s.putQuad n q).msixPending = s.msixPending := rfl

/-! ### State.putSlice -/

@[simp] theorem State.putSlice_cur (n : Nat) (x : Slice) : (s.putSlice n x).cur = s.cur := rfl
@[simp] theorem State.putSlice_issue (n : Nat) (x : Slice) : (s.putSlice n x).issue = s.issue := rfl
@[simp] theorem State.putSlice_agenda (n : Nat) (x : Slice) : (s.putSlice n x).agenda = s.agenda := rfl
@[simp] theorem State.putSlice_freeCtr (n : Nat) (x : Slice) : (s.putSlice n x).freeCtr = s.freeCtr := rfl
@[simp] theorem State.putSlice_mem (n : Nat) (x : Slice) : (s.putSlice n x).mem = s.mem := rfl
@[simp] theorem State.putSlice_lines (n : Nat) (x : Slice) : (s.putSlice n x).lines = s.lines := rfl
@[simp] theorem State.putSlice_tags (n : Nat) (x : Slice) : (s.putSlice n x).tags = s.tags := rfl
@[simp] theorem State.putSlice_pages (n : Nat) (x : Slice) : (s.putSlice n x).pages = s.pages := rfl
@[simp] theorem State.putSlice_bound (n : Nat) (x : Slice) : (s.putSlice n x).bound = s.bound := rfl
@[simp] theorem State.putSlice_cellAsid (n : Nat) (x : Slice) : (s.putSlice n x).cellAsid = s.cellAsid := rfl
@[simp] theorem State.putSlice_steps (n : Nat) (x : Slice) : (s.putSlice n x).steps = s.steps := rfl
@[simp] theorem State.putSlice_refired (n : Nat) (x : Slice) : (s.putSlice n x).refired = s.refired := rfl
@[simp] theorem State.putSlice_poison (n : Nat) (x : Slice) : (s.putSlice n x).poison = s.poison := rfl
@[simp] theorem State.putSlice_eccCorrected (n : Nat) (x : Slice) : (s.putSlice n x).eccCorrected = s.eccCorrected := rfl
@[simp] theorem State.putSlice_frames (n : Nat) (x : Slice) : (s.putSlice n x).frames = s.frames := rfl
@[simp] theorem State.putSlice_cores (n : Nat) (x : Slice) : (s.putSlice n x).cores = s.cores := rfl
@[simp] theorem State.putSlice_quads (n : Nat) (x : Slice) : (s.putSlice n x).quads = s.quads := rfl
@[simp] theorem State.putSlice_waits (n : Nat) (x : Slice) : (s.putSlice n x).waits = s.waits := rfl
@[simp] theorem State.putSlice_msgs (n : Nat) (x : Slice) : (s.putSlice n x).msgs = s.msgs := rfl
@[simp] theorem State.putSlice_parts (n : Nat) (x : Slice) : (s.putSlice n x).parts = s.parts := rfl
@[simp] theorem State.putSlice_jobs (n : Nat) (x : Slice) : (s.putSlice n x).jobs = s.jobs := rfl
@[simp] theorem State.putSlice_turns (n : Nat) (x : Slice) : (s.putSlice n x).turns = s.turns := rfl
@[simp] theorem State.putSlice_nextJob (n : Nat) (x : Slice) : (s.putSlice n x).nextJob = s.nextJob := rfl
@[simp] theorem State.putSlice_nextBlock (n : Nat) (x : Slice) : (s.putSlice n x).nextBlock = s.nextBlock := rfl
@[simp] theorem State.putSlice_ctxs (n : Nat) (x : Slice) : (s.putSlice n x).ctxs = s.ctxs := rfl
@[simp] theorem State.putSlice_combines (n : Nat) (x : Slice) : (s.putSlice n x).combines = s.combines := rfl
@[simp] theorem State.putSlice_fenced (n : Nat) (x : Slice) : (s.putSlice n x).fenced = s.fenced := rfl
@[simp] theorem State.putSlice_master (n : Nat) (x : Slice) : (s.putSlice n x).master = s.master := rfl
@[simp] theorem State.putSlice_electing (n : Nat) (x : Slice) : (s.putSlice n x).electing = s.electing := rfl
@[simp] theorem State.putSlice_stopped (n : Nat) (x : Slice) : (s.putSlice n x).stopped = s.stopped := rfl
@[simp] theorem State.putSlice_dev (n : Nat) (x : Slice) : (s.putSlice n x).dev = s.dev := rfl
@[simp] theorem State.putSlice_mapcmd (n : Nat) (x : Slice) : (s.putSlice n x).mapcmd = s.mapcmd := rfl
@[simp] theorem State.putSlice_mcDropped (n : Nat) (x : Slice) : (s.putSlice n x).mcDropped = s.mcDropped := rfl
@[simp] theorem State.putSlice_windows (n : Nat) (x : Slice) : (s.putSlice n x).windows = s.windows := rfl
@[simp] theorem State.putSlice_flowsOut (n : Nat) (x : Slice) : (s.putSlice n x).flowsOut = s.flowsOut := rfl
@[simp] theorem State.putSlice_flowsIn (n : Nat) (x : Slice) : (s.putSlice n x).flowsIn = s.flowsIn := rfl
@[simp] theorem State.putSlice_ports (n : Nat) (x : Slice) : (s.putSlice n x).ports = s.ports := rfl
@[simp] theorem State.putSlice_links (n : Nat) (x : Slice) : (s.putSlice n x).links = s.links := rfl
@[simp] theorem State.putSlice_remotes (n : Nat) (x : Slice) : (s.putSlice n x).remotes = s.remotes := rfl
@[simp] theorem State.putSlice_nextTag (n : Nat) (x : Slice) : (s.putSlice n x).nextTag = s.nextTag := rfl
@[simp] theorem State.putSlice_stamps (n : Nat) (x : Slice) : (s.putSlice n x).stamps = s.stamps := rfl
@[simp] theorem State.putSlice_slots (n : Nat) (x : Slice) : (s.putSlice n x).slots = s.slots := rfl
@[simp] theorem State.putSlice_hostOut (n : Nat) (x : Slice) : (s.putSlice n x).hostOut = s.hostOut := rfl
@[simp] theorem State.putSlice_msixTable (n : Nat) (x : Slice) : (s.putSlice n x).msixTable = s.msixTable := rfl
@[simp] theorem State.putSlice_msixPending (n : Nat) (x : Slice) : (s.putSlice n x).msixPending = s.msixPending := rfl

/-! ### State.putPart -/

@[simp] theorem State.putPart_cur (p : Nat) (x : Partition) : (s.putPart p x).cur = s.cur := rfl
@[simp] theorem State.putPart_issue (p : Nat) (x : Partition) : (s.putPart p x).issue = s.issue := rfl
@[simp] theorem State.putPart_agenda (p : Nat) (x : Partition) : (s.putPart p x).agenda = s.agenda := rfl
@[simp] theorem State.putPart_freeCtr (p : Nat) (x : Partition) : (s.putPart p x).freeCtr = s.freeCtr := rfl
@[simp] theorem State.putPart_mem (p : Nat) (x : Partition) : (s.putPart p x).mem = s.mem := rfl
@[simp] theorem State.putPart_lines (p : Nat) (x : Partition) : (s.putPart p x).lines = s.lines := rfl
@[simp] theorem State.putPart_tags (p : Nat) (x : Partition) : (s.putPart p x).tags = s.tags := rfl
@[simp] theorem State.putPart_pages (p : Nat) (x : Partition) : (s.putPart p x).pages = s.pages := rfl
@[simp] theorem State.putPart_bound (p : Nat) (x : Partition) : (s.putPart p x).bound = s.bound := rfl
@[simp] theorem State.putPart_cellAsid (p : Nat) (x : Partition) : (s.putPart p x).cellAsid = s.cellAsid := rfl
@[simp] theorem State.putPart_steps (p : Nat) (x : Partition) : (s.putPart p x).steps = s.steps := rfl
@[simp] theorem State.putPart_refired (p : Nat) (x : Partition) : (s.putPart p x).refired = s.refired := rfl
@[simp] theorem State.putPart_poison (p : Nat) (x : Partition) : (s.putPart p x).poison = s.poison := rfl
@[simp] theorem State.putPart_eccCorrected (p : Nat) (x : Partition) : (s.putPart p x).eccCorrected = s.eccCorrected := rfl
@[simp] theorem State.putPart_frames (p : Nat) (x : Partition) : (s.putPart p x).frames = s.frames := rfl
@[simp] theorem State.putPart_cores (p : Nat) (x : Partition) : (s.putPart p x).cores = s.cores := rfl
@[simp] theorem State.putPart_quads (p : Nat) (x : Partition) : (s.putPart p x).quads = s.quads := rfl
@[simp] theorem State.putPart_slices (p : Nat) (x : Partition) : (s.putPart p x).slices = s.slices := rfl
@[simp] theorem State.putPart_waits (p : Nat) (x : Partition) : (s.putPart p x).waits = s.waits := rfl
@[simp] theorem State.putPart_msgs (p : Nat) (x : Partition) : (s.putPart p x).msgs = s.msgs := rfl
@[simp] theorem State.putPart_jobs (p : Nat) (x : Partition) : (s.putPart p x).jobs = s.jobs := rfl
@[simp] theorem State.putPart_turns (p : Nat) (x : Partition) : (s.putPart p x).turns = s.turns := rfl
@[simp] theorem State.putPart_nextJob (p : Nat) (x : Partition) : (s.putPart p x).nextJob = s.nextJob := rfl
@[simp] theorem State.putPart_nextBlock (p : Nat) (x : Partition) : (s.putPart p x).nextBlock = s.nextBlock := rfl
@[simp] theorem State.putPart_ctxs (p : Nat) (x : Partition) : (s.putPart p x).ctxs = s.ctxs := rfl
@[simp] theorem State.putPart_combines (p : Nat) (x : Partition) : (s.putPart p x).combines = s.combines := rfl
@[simp] theorem State.putPart_fenced (p : Nat) (x : Partition) : (s.putPart p x).fenced = s.fenced := rfl
@[simp] theorem State.putPart_master (p : Nat) (x : Partition) : (s.putPart p x).master = s.master := rfl
@[simp] theorem State.putPart_electing (p : Nat) (x : Partition) : (s.putPart p x).electing = s.electing := rfl
@[simp] theorem State.putPart_stopped (p : Nat) (x : Partition) : (s.putPart p x).stopped = s.stopped := rfl
@[simp] theorem State.putPart_dev (p : Nat) (x : Partition) : (s.putPart p x).dev = s.dev := rfl
@[simp] theorem State.putPart_mapcmd (p : Nat) (x : Partition) : (s.putPart p x).mapcmd = s.mapcmd := rfl
@[simp] theorem State.putPart_mcDropped (p : Nat) (x : Partition) : (s.putPart p x).mcDropped = s.mcDropped := rfl
@[simp] theorem State.putPart_windows (p : Nat) (x : Partition) : (s.putPart p x).windows = s.windows := rfl
@[simp] theorem State.putPart_flowsOut (p : Nat) (x : Partition) : (s.putPart p x).flowsOut = s.flowsOut := rfl
@[simp] theorem State.putPart_flowsIn (p : Nat) (x : Partition) : (s.putPart p x).flowsIn = s.flowsIn := rfl
@[simp] theorem State.putPart_ports (p : Nat) (x : Partition) : (s.putPart p x).ports = s.ports := rfl
@[simp] theorem State.putPart_links (p : Nat) (x : Partition) : (s.putPart p x).links = s.links := rfl
@[simp] theorem State.putPart_remotes (p : Nat) (x : Partition) : (s.putPart p x).remotes = s.remotes := rfl
@[simp] theorem State.putPart_nextTag (p : Nat) (x : Partition) : (s.putPart p x).nextTag = s.nextTag := rfl
@[simp] theorem State.putPart_stamps (p : Nat) (x : Partition) : (s.putPart p x).stamps = s.stamps := rfl
@[simp] theorem State.putPart_slots (p : Nat) (x : Partition) : (s.putPart p x).slots = s.slots := rfl
@[simp] theorem State.putPart_hostOut (p : Nat) (x : Partition) : (s.putPart p x).hostOut = s.hostOut := rfl
@[simp] theorem State.putPart_msixTable (p : Nat) (x : Partition) : (s.putPart p x).msixTable = s.msixTable := rfl
@[simp] theorem State.putPart_msixPending (p : Nat) (x : Partition) : (s.putPart p x).msixPending = s.msixPending := rfl

/-! ### State.putFr -/

@[simp] theorem State.putFr_cur (f : Frame) : (s.putFr f).cur = s.cur := rfl
@[simp] theorem State.putFr_issue (f : Frame) : (s.putFr f).issue = s.issue := rfl
@[simp] theorem State.putFr_agenda (f : Frame) : (s.putFr f).agenda = s.agenda := rfl
@[simp] theorem State.putFr_freeCtr (f : Frame) : (s.putFr f).freeCtr = s.freeCtr := rfl
@[simp] theorem State.putFr_mem (f : Frame) : (s.putFr f).mem = s.mem := rfl
@[simp] theorem State.putFr_lines (f : Frame) : (s.putFr f).lines = s.lines := rfl
@[simp] theorem State.putFr_tags (f : Frame) : (s.putFr f).tags = s.tags := rfl
@[simp] theorem State.putFr_pages (f : Frame) : (s.putFr f).pages = s.pages := rfl
@[simp] theorem State.putFr_bound (f : Frame) : (s.putFr f).bound = s.bound := rfl
@[simp] theorem State.putFr_cellAsid (f : Frame) : (s.putFr f).cellAsid = s.cellAsid := rfl
@[simp] theorem State.putFr_steps (f : Frame) : (s.putFr f).steps = s.steps := rfl
@[simp] theorem State.putFr_refired (f : Frame) : (s.putFr f).refired = s.refired := rfl
@[simp] theorem State.putFr_poison (f : Frame) : (s.putFr f).poison = s.poison := rfl
@[simp] theorem State.putFr_eccCorrected (f : Frame) : (s.putFr f).eccCorrected = s.eccCorrected := rfl
@[simp] theorem State.putFr_cores (f : Frame) : (s.putFr f).cores = s.cores := rfl
@[simp] theorem State.putFr_quads (f : Frame) : (s.putFr f).quads = s.quads := rfl
@[simp] theorem State.putFr_slices (f : Frame) : (s.putFr f).slices = s.slices := rfl
@[simp] theorem State.putFr_waits (f : Frame) : (s.putFr f).waits = s.waits := rfl
@[simp] theorem State.putFr_msgs (f : Frame) : (s.putFr f).msgs = s.msgs := rfl
@[simp] theorem State.putFr_parts (f : Frame) : (s.putFr f).parts = s.parts := rfl
@[simp] theorem State.putFr_jobs (f : Frame) : (s.putFr f).jobs = s.jobs := rfl
@[simp] theorem State.putFr_turns (f : Frame) : (s.putFr f).turns = s.turns := rfl
@[simp] theorem State.putFr_nextJob (f : Frame) : (s.putFr f).nextJob = s.nextJob := rfl
@[simp] theorem State.putFr_nextBlock (f : Frame) : (s.putFr f).nextBlock = s.nextBlock := rfl
@[simp] theorem State.putFr_ctxs (f : Frame) : (s.putFr f).ctxs = s.ctxs := rfl
@[simp] theorem State.putFr_combines (f : Frame) : (s.putFr f).combines = s.combines := rfl
@[simp] theorem State.putFr_fenced (f : Frame) : (s.putFr f).fenced = s.fenced := rfl
@[simp] theorem State.putFr_master (f : Frame) : (s.putFr f).master = s.master := rfl
@[simp] theorem State.putFr_electing (f : Frame) : (s.putFr f).electing = s.electing := rfl
@[simp] theorem State.putFr_stopped (f : Frame) : (s.putFr f).stopped = s.stopped := rfl
@[simp] theorem State.putFr_dev (f : Frame) : (s.putFr f).dev = s.dev := rfl
@[simp] theorem State.putFr_mapcmd (f : Frame) : (s.putFr f).mapcmd = s.mapcmd := rfl
@[simp] theorem State.putFr_mcDropped (f : Frame) : (s.putFr f).mcDropped = s.mcDropped := rfl
@[simp] theorem State.putFr_windows (f : Frame) : (s.putFr f).windows = s.windows := rfl
@[simp] theorem State.putFr_flowsOut (f : Frame) : (s.putFr f).flowsOut = s.flowsOut := rfl
@[simp] theorem State.putFr_flowsIn (f : Frame) : (s.putFr f).flowsIn = s.flowsIn := rfl
@[simp] theorem State.putFr_ports (f : Frame) : (s.putFr f).ports = s.ports := rfl
@[simp] theorem State.putFr_links (f : Frame) : (s.putFr f).links = s.links := rfl
@[simp] theorem State.putFr_remotes (f : Frame) : (s.putFr f).remotes = s.remotes := rfl
@[simp] theorem State.putFr_nextTag (f : Frame) : (s.putFr f).nextTag = s.nextTag := rfl
@[simp] theorem State.putFr_stamps (f : Frame) : (s.putFr f).stamps = s.stamps := rfl
@[simp] theorem State.putFr_slots (f : Frame) : (s.putFr f).slots = s.slots := rfl
@[simp] theorem State.putFr_hostOut (f : Frame) : (s.putFr f).hostOut = s.hostOut := rfl
@[simp] theorem State.putFr_msixTable (f : Frame) : (s.putFr f).msixTable = s.msixTable := rfl
@[simp] theorem State.putFr_msixPending (f : Frame) : (s.putFr f).msixPending = s.msixPending := rfl

/-! ### State.putCo -/

@[simp] theorem State.putCo_cur (c : Core) : (s.putCo c).cur = s.cur := rfl
@[simp] theorem State.putCo_issue (c : Core) : (s.putCo c).issue = s.issue := rfl
@[simp] theorem State.putCo_agenda (c : Core) : (s.putCo c).agenda = s.agenda := rfl
@[simp] theorem State.putCo_freeCtr (c : Core) : (s.putCo c).freeCtr = s.freeCtr := rfl
@[simp] theorem State.putCo_mem (c : Core) : (s.putCo c).mem = s.mem := rfl
@[simp] theorem State.putCo_lines (c : Core) : (s.putCo c).lines = s.lines := rfl
@[simp] theorem State.putCo_tags (c : Core) : (s.putCo c).tags = s.tags := rfl
@[simp] theorem State.putCo_pages (c : Core) : (s.putCo c).pages = s.pages := rfl
@[simp] theorem State.putCo_bound (c : Core) : (s.putCo c).bound = s.bound := rfl
@[simp] theorem State.putCo_cellAsid (c : Core) : (s.putCo c).cellAsid = s.cellAsid := rfl
@[simp] theorem State.putCo_steps (c : Core) : (s.putCo c).steps = s.steps := rfl
@[simp] theorem State.putCo_refired (c : Core) : (s.putCo c).refired = s.refired := rfl
@[simp] theorem State.putCo_poison (c : Core) : (s.putCo c).poison = s.poison := rfl
@[simp] theorem State.putCo_eccCorrected (c : Core) : (s.putCo c).eccCorrected = s.eccCorrected := rfl
@[simp] theorem State.putCo_frames (c : Core) : (s.putCo c).frames = s.frames := rfl
@[simp] theorem State.putCo_quads (c : Core) : (s.putCo c).quads = s.quads := rfl
@[simp] theorem State.putCo_slices (c : Core) : (s.putCo c).slices = s.slices := rfl
@[simp] theorem State.putCo_waits (c : Core) : (s.putCo c).waits = s.waits := rfl
@[simp] theorem State.putCo_msgs (c : Core) : (s.putCo c).msgs = s.msgs := rfl
@[simp] theorem State.putCo_parts (c : Core) : (s.putCo c).parts = s.parts := rfl
@[simp] theorem State.putCo_jobs (c : Core) : (s.putCo c).jobs = s.jobs := rfl
@[simp] theorem State.putCo_turns (c : Core) : (s.putCo c).turns = s.turns := rfl
@[simp] theorem State.putCo_nextJob (c : Core) : (s.putCo c).nextJob = s.nextJob := rfl
@[simp] theorem State.putCo_nextBlock (c : Core) : (s.putCo c).nextBlock = s.nextBlock := rfl
@[simp] theorem State.putCo_ctxs (c : Core) : (s.putCo c).ctxs = s.ctxs := rfl
@[simp] theorem State.putCo_combines (c : Core) : (s.putCo c).combines = s.combines := rfl
@[simp] theorem State.putCo_fenced (c : Core) : (s.putCo c).fenced = s.fenced := rfl
@[simp] theorem State.putCo_master (c : Core) : (s.putCo c).master = s.master := rfl
@[simp] theorem State.putCo_electing (c : Core) : (s.putCo c).electing = s.electing := rfl
@[simp] theorem State.putCo_stopped (c : Core) : (s.putCo c).stopped = s.stopped := rfl
@[simp] theorem State.putCo_dev (c : Core) : (s.putCo c).dev = s.dev := rfl
@[simp] theorem State.putCo_mapcmd (c : Core) : (s.putCo c).mapcmd = s.mapcmd := rfl
@[simp] theorem State.putCo_mcDropped (c : Core) : (s.putCo c).mcDropped = s.mcDropped := rfl
@[simp] theorem State.putCo_windows (c : Core) : (s.putCo c).windows = s.windows := rfl
@[simp] theorem State.putCo_flowsOut (c : Core) : (s.putCo c).flowsOut = s.flowsOut := rfl
@[simp] theorem State.putCo_flowsIn (c : Core) : (s.putCo c).flowsIn = s.flowsIn := rfl
@[simp] theorem State.putCo_ports (c : Core) : (s.putCo c).ports = s.ports := rfl
@[simp] theorem State.putCo_links (c : Core) : (s.putCo c).links = s.links := rfl
@[simp] theorem State.putCo_remotes (c : Core) : (s.putCo c).remotes = s.remotes := rfl
@[simp] theorem State.putCo_nextTag (c : Core) : (s.putCo c).nextTag = s.nextTag := rfl
@[simp] theorem State.putCo_stamps (c : Core) : (s.putCo c).stamps = s.stamps := rfl
@[simp] theorem State.putCo_slots (c : Core) : (s.putCo c).slots = s.slots := rfl
@[simp] theorem State.putCo_hostOut (c : Core) : (s.putCo c).hostOut = s.hostOut := rfl
@[simp] theorem State.putCo_msixTable (c : Core) : (s.putCo c).msixTable = s.msixTable := rfl
@[simp] theorem State.putCo_msixPending (c : Core) : (s.putCo c).msixPending = s.msixPending := rfl

/-! ### State.send -/

@[simp] theorem State.send_cur (m : Msg) : (s.send m).cur = s.cur := rfl
@[simp] theorem State.send_issue (m : Msg) : (s.send m).issue = s.issue := rfl
@[simp] theorem State.send_agenda (m : Msg) : (s.send m).agenda = s.agenda := rfl
@[simp] theorem State.send_freeCtr (m : Msg) : (s.send m).freeCtr = s.freeCtr := rfl
@[simp] theorem State.send_mem (m : Msg) : (s.send m).mem = s.mem := rfl
@[simp] theorem State.send_lines (m : Msg) : (s.send m).lines = s.lines := rfl
@[simp] theorem State.send_tags (m : Msg) : (s.send m).tags = s.tags := rfl
@[simp] theorem State.send_pages (m : Msg) : (s.send m).pages = s.pages := rfl
@[simp] theorem State.send_bound (m : Msg) : (s.send m).bound = s.bound := rfl
@[simp] theorem State.send_cellAsid (m : Msg) : (s.send m).cellAsid = s.cellAsid := rfl
@[simp] theorem State.send_steps (m : Msg) : (s.send m).steps = s.steps := rfl
@[simp] theorem State.send_refired (m : Msg) : (s.send m).refired = s.refired := rfl
@[simp] theorem State.send_poison (m : Msg) : (s.send m).poison = s.poison := rfl
@[simp] theorem State.send_eccCorrected (m : Msg) : (s.send m).eccCorrected = s.eccCorrected := rfl
@[simp] theorem State.send_frames (m : Msg) : (s.send m).frames = s.frames := rfl
@[simp] theorem State.send_cores (m : Msg) : (s.send m).cores = s.cores := rfl
@[simp] theorem State.send_quads (m : Msg) : (s.send m).quads = s.quads := rfl
@[simp] theorem State.send_slices (m : Msg) : (s.send m).slices = s.slices := rfl
@[simp] theorem State.send_waits (m : Msg) : (s.send m).waits = s.waits := rfl
@[simp] theorem State.send_parts (m : Msg) : (s.send m).parts = s.parts := rfl
@[simp] theorem State.send_jobs (m : Msg) : (s.send m).jobs = s.jobs := rfl
@[simp] theorem State.send_turns (m : Msg) : (s.send m).turns = s.turns := rfl
@[simp] theorem State.send_nextJob (m : Msg) : (s.send m).nextJob = s.nextJob := rfl
@[simp] theorem State.send_nextBlock (m : Msg) : (s.send m).nextBlock = s.nextBlock := rfl
@[simp] theorem State.send_ctxs (m : Msg) : (s.send m).ctxs = s.ctxs := rfl
@[simp] theorem State.send_combines (m : Msg) : (s.send m).combines = s.combines := rfl
@[simp] theorem State.send_fenced (m : Msg) : (s.send m).fenced = s.fenced := rfl
@[simp] theorem State.send_master (m : Msg) : (s.send m).master = s.master := rfl
@[simp] theorem State.send_electing (m : Msg) : (s.send m).electing = s.electing := rfl
@[simp] theorem State.send_stopped (m : Msg) : (s.send m).stopped = s.stopped := rfl
@[simp] theorem State.send_dev (m : Msg) : (s.send m).dev = s.dev := rfl
@[simp] theorem State.send_mapcmd (m : Msg) : (s.send m).mapcmd = s.mapcmd := rfl
@[simp] theorem State.send_mcDropped (m : Msg) : (s.send m).mcDropped = s.mcDropped := rfl
@[simp] theorem State.send_windows (m : Msg) : (s.send m).windows = s.windows := rfl
@[simp] theorem State.send_flowsOut (m : Msg) : (s.send m).flowsOut = s.flowsOut := rfl
@[simp] theorem State.send_flowsIn (m : Msg) : (s.send m).flowsIn = s.flowsIn := rfl
@[simp] theorem State.send_ports (m : Msg) : (s.send m).ports = s.ports := rfl
@[simp] theorem State.send_links (m : Msg) : (s.send m).links = s.links := rfl
@[simp] theorem State.send_remotes (m : Msg) : (s.send m).remotes = s.remotes := rfl
@[simp] theorem State.send_nextTag (m : Msg) : (s.send m).nextTag = s.nextTag := rfl
@[simp] theorem State.send_stamps (m : Msg) : (s.send m).stamps = s.stamps := rfl
@[simp] theorem State.send_slots (m : Msg) : (s.send m).slots = s.slots := rfl
@[simp] theorem State.send_hostOut (m : Msg) : (s.send m).hostOut = s.hostOut := rfl
@[simp] theorem State.send_msixTable (m : Msg) : (s.send m).msixTable = s.msixTable := rfl
@[simp] theorem State.send_msixPending (m : Msg) : (s.send m).msixPending = s.msixPending := rfl

/-! ### State.setTag -/

@[simp] theorem State.setTag_cur (sec t : Nat) : (s.setTag sec t).cur = s.cur := rfl
@[simp] theorem State.setTag_issue (sec t : Nat) : (s.setTag sec t).issue = s.issue := rfl
@[simp] theorem State.setTag_agenda (sec t : Nat) : (s.setTag sec t).agenda = s.agenda := rfl
@[simp] theorem State.setTag_freeCtr (sec t : Nat) : (s.setTag sec t).freeCtr = s.freeCtr := rfl
@[simp] theorem State.setTag_mem (sec t : Nat) : (s.setTag sec t).mem = s.mem := rfl
@[simp] theorem State.setTag_lines (sec t : Nat) : (s.setTag sec t).lines = s.lines := rfl
@[simp] theorem State.setTag_pages (sec t : Nat) : (s.setTag sec t).pages = s.pages := rfl
@[simp] theorem State.setTag_bound (sec t : Nat) : (s.setTag sec t).bound = s.bound := rfl
@[simp] theorem State.setTag_cellAsid (sec t : Nat) : (s.setTag sec t).cellAsid = s.cellAsid := rfl
@[simp] theorem State.setTag_steps (sec t : Nat) : (s.setTag sec t).steps = s.steps := rfl
@[simp] theorem State.setTag_refired (sec t : Nat) : (s.setTag sec t).refired = s.refired := rfl
@[simp] theorem State.setTag_poison (sec t : Nat) : (s.setTag sec t).poison = s.poison := rfl
@[simp] theorem State.setTag_eccCorrected (sec t : Nat) : (s.setTag sec t).eccCorrected = s.eccCorrected := rfl
@[simp] theorem State.setTag_frames (sec t : Nat) : (s.setTag sec t).frames = s.frames := rfl
@[simp] theorem State.setTag_cores (sec t : Nat) : (s.setTag sec t).cores = s.cores := rfl
@[simp] theorem State.setTag_quads (sec t : Nat) : (s.setTag sec t).quads = s.quads := rfl
@[simp] theorem State.setTag_slices (sec t : Nat) : (s.setTag sec t).slices = s.slices := rfl
@[simp] theorem State.setTag_waits (sec t : Nat) : (s.setTag sec t).waits = s.waits := rfl
@[simp] theorem State.setTag_msgs (sec t : Nat) : (s.setTag sec t).msgs = s.msgs := rfl
@[simp] theorem State.setTag_parts (sec t : Nat) : (s.setTag sec t).parts = s.parts := rfl
@[simp] theorem State.setTag_jobs (sec t : Nat) : (s.setTag sec t).jobs = s.jobs := rfl
@[simp] theorem State.setTag_turns (sec t : Nat) : (s.setTag sec t).turns = s.turns := rfl
@[simp] theorem State.setTag_nextJob (sec t : Nat) : (s.setTag sec t).nextJob = s.nextJob := rfl
@[simp] theorem State.setTag_nextBlock (sec t : Nat) : (s.setTag sec t).nextBlock = s.nextBlock := rfl
@[simp] theorem State.setTag_ctxs (sec t : Nat) : (s.setTag sec t).ctxs = s.ctxs := rfl
@[simp] theorem State.setTag_combines (sec t : Nat) : (s.setTag sec t).combines = s.combines := rfl
@[simp] theorem State.setTag_fenced (sec t : Nat) : (s.setTag sec t).fenced = s.fenced := rfl
@[simp] theorem State.setTag_master (sec t : Nat) : (s.setTag sec t).master = s.master := rfl
@[simp] theorem State.setTag_electing (sec t : Nat) : (s.setTag sec t).electing = s.electing := rfl
@[simp] theorem State.setTag_stopped (sec t : Nat) : (s.setTag sec t).stopped = s.stopped := rfl
@[simp] theorem State.setTag_dev (sec t : Nat) : (s.setTag sec t).dev = s.dev := rfl
@[simp] theorem State.setTag_mapcmd (sec t : Nat) : (s.setTag sec t).mapcmd = s.mapcmd := rfl
@[simp] theorem State.setTag_mcDropped (sec t : Nat) : (s.setTag sec t).mcDropped = s.mcDropped := rfl
@[simp] theorem State.setTag_windows (sec t : Nat) : (s.setTag sec t).windows = s.windows := rfl
@[simp] theorem State.setTag_flowsOut (sec t : Nat) : (s.setTag sec t).flowsOut = s.flowsOut := rfl
@[simp] theorem State.setTag_flowsIn (sec t : Nat) : (s.setTag sec t).flowsIn = s.flowsIn := rfl
@[simp] theorem State.setTag_ports (sec t : Nat) : (s.setTag sec t).ports = s.ports := rfl
@[simp] theorem State.setTag_links (sec t : Nat) : (s.setTag sec t).links = s.links := rfl
@[simp] theorem State.setTag_remotes (sec t : Nat) : (s.setTag sec t).remotes = s.remotes := rfl
@[simp] theorem State.setTag_nextTag (sec t : Nat) : (s.setTag sec t).nextTag = s.nextTag := rfl
@[simp] theorem State.setTag_stamps (sec t : Nat) : (s.setTag sec t).stamps = s.stamps := rfl
@[simp] theorem State.setTag_slots (sec t : Nat) : (s.setTag sec t).slots = s.slots := rfl
@[simp] theorem State.setTag_hostOut (sec t : Nat) : (s.setTag sec t).hostOut = s.hostOut := rfl
@[simp] theorem State.setTag_msixTable (sec t : Nat) : (s.setTag sec t).msixTable = s.msixTable := rfl
@[simp] theorem State.setTag_msixPending (sec t : Nat) : (s.setTag sec t).msixPending = s.msixPending := rfl

/-! ### State.homeWrite -/

@[simp] theorem State.homeWrite_cur (key : Nat) (bs : List Byte) (h : Hint) : (s.homeWrite key bs h).cur = s.cur := rfl
@[simp] theorem State.homeWrite_issue (key : Nat) (bs : List Byte) (h : Hint) : (s.homeWrite key bs h).issue = s.issue := rfl
@[simp] theorem State.homeWrite_agenda (key : Nat) (bs : List Byte) (h : Hint) : (s.homeWrite key bs h).agenda = s.agenda := rfl
@[simp] theorem State.homeWrite_freeCtr (key : Nat) (bs : List Byte) (h : Hint) : (s.homeWrite key bs h).freeCtr = s.freeCtr := rfl
@[simp] theorem State.homeWrite_tags (key : Nat) (bs : List Byte) (h : Hint) : (s.homeWrite key bs h).tags = s.tags := rfl
@[simp] theorem State.homeWrite_pages (key : Nat) (bs : List Byte) (h : Hint) : (s.homeWrite key bs h).pages = s.pages := rfl
@[simp] theorem State.homeWrite_bound (key : Nat) (bs : List Byte) (h : Hint) : (s.homeWrite key bs h).bound = s.bound := rfl
@[simp] theorem State.homeWrite_cellAsid (key : Nat) (bs : List Byte) (h : Hint) : (s.homeWrite key bs h).cellAsid = s.cellAsid := rfl
@[simp] theorem State.homeWrite_steps (key : Nat) (bs : List Byte) (h : Hint) : (s.homeWrite key bs h).steps = s.steps := rfl
@[simp] theorem State.homeWrite_refired (key : Nat) (bs : List Byte) (h : Hint) : (s.homeWrite key bs h).refired = s.refired := rfl
@[simp] theorem State.homeWrite_eccCorrected (key : Nat) (bs : List Byte) (h : Hint) : (s.homeWrite key bs h).eccCorrected = s.eccCorrected := rfl
@[simp] theorem State.homeWrite_frames (key : Nat) (bs : List Byte) (h : Hint) : (s.homeWrite key bs h).frames = s.frames := rfl
@[simp] theorem State.homeWrite_cores (key : Nat) (bs : List Byte) (h : Hint) : (s.homeWrite key bs h).cores = s.cores := rfl
@[simp] theorem State.homeWrite_quads (key : Nat) (bs : List Byte) (h : Hint) : (s.homeWrite key bs h).quads = s.quads := rfl
@[simp] theorem State.homeWrite_slices (key : Nat) (bs : List Byte) (h : Hint) : (s.homeWrite key bs h).slices = s.slices := rfl
@[simp] theorem State.homeWrite_waits (key : Nat) (bs : List Byte) (h : Hint) : (s.homeWrite key bs h).waits = s.waits := rfl
@[simp] theorem State.homeWrite_msgs (key : Nat) (bs : List Byte) (h : Hint) : (s.homeWrite key bs h).msgs = s.msgs := rfl
@[simp] theorem State.homeWrite_parts (key : Nat) (bs : List Byte) (h : Hint) : (s.homeWrite key bs h).parts = s.parts := rfl
@[simp] theorem State.homeWrite_jobs (key : Nat) (bs : List Byte) (h : Hint) : (s.homeWrite key bs h).jobs = s.jobs := rfl
@[simp] theorem State.homeWrite_turns (key : Nat) (bs : List Byte) (h : Hint) : (s.homeWrite key bs h).turns = s.turns := rfl
@[simp] theorem State.homeWrite_nextJob (key : Nat) (bs : List Byte) (h : Hint) : (s.homeWrite key bs h).nextJob = s.nextJob := rfl
@[simp] theorem State.homeWrite_nextBlock (key : Nat) (bs : List Byte) (h : Hint) : (s.homeWrite key bs h).nextBlock = s.nextBlock := rfl
@[simp] theorem State.homeWrite_ctxs (key : Nat) (bs : List Byte) (h : Hint) : (s.homeWrite key bs h).ctxs = s.ctxs := rfl
@[simp] theorem State.homeWrite_combines (key : Nat) (bs : List Byte) (h : Hint) : (s.homeWrite key bs h).combines = s.combines := rfl
@[simp] theorem State.homeWrite_fenced (key : Nat) (bs : List Byte) (h : Hint) : (s.homeWrite key bs h).fenced = s.fenced := rfl
@[simp] theorem State.homeWrite_master (key : Nat) (bs : List Byte) (h : Hint) : (s.homeWrite key bs h).master = s.master := rfl
@[simp] theorem State.homeWrite_electing (key : Nat) (bs : List Byte) (h : Hint) : (s.homeWrite key bs h).electing = s.electing := rfl
@[simp] theorem State.homeWrite_stopped (key : Nat) (bs : List Byte) (h : Hint) : (s.homeWrite key bs h).stopped = s.stopped := rfl
@[simp] theorem State.homeWrite_dev (key : Nat) (bs : List Byte) (h : Hint) : (s.homeWrite key bs h).dev = s.dev := rfl
@[simp] theorem State.homeWrite_mapcmd (key : Nat) (bs : List Byte) (h : Hint) : (s.homeWrite key bs h).mapcmd = s.mapcmd := rfl
@[simp] theorem State.homeWrite_mcDropped (key : Nat) (bs : List Byte) (h : Hint) : (s.homeWrite key bs h).mcDropped = s.mcDropped := rfl
@[simp] theorem State.homeWrite_windows (key : Nat) (bs : List Byte) (h : Hint) : (s.homeWrite key bs h).windows = s.windows := rfl
@[simp] theorem State.homeWrite_flowsOut (key : Nat) (bs : List Byte) (h : Hint) : (s.homeWrite key bs h).flowsOut = s.flowsOut := rfl
@[simp] theorem State.homeWrite_flowsIn (key : Nat) (bs : List Byte) (h : Hint) : (s.homeWrite key bs h).flowsIn = s.flowsIn := rfl
@[simp] theorem State.homeWrite_ports (key : Nat) (bs : List Byte) (h : Hint) : (s.homeWrite key bs h).ports = s.ports := rfl
@[simp] theorem State.homeWrite_links (key : Nat) (bs : List Byte) (h : Hint) : (s.homeWrite key bs h).links = s.links := rfl
@[simp] theorem State.homeWrite_remotes (key : Nat) (bs : List Byte) (h : Hint) : (s.homeWrite key bs h).remotes = s.remotes := rfl
@[simp] theorem State.homeWrite_nextTag (key : Nat) (bs : List Byte) (h : Hint) : (s.homeWrite key bs h).nextTag = s.nextTag := rfl
@[simp] theorem State.homeWrite_stamps (key : Nat) (bs : List Byte) (h : Hint) : (s.homeWrite key bs h).stamps = s.stamps := rfl
@[simp] theorem State.homeWrite_slots (key : Nat) (bs : List Byte) (h : Hint) : (s.homeWrite key bs h).slots = s.slots := rfl
@[simp] theorem State.homeWrite_hostOut (key : Nat) (bs : List Byte) (h : Hint) : (s.homeWrite key bs h).hostOut = s.hostOut := rfl
@[simp] theorem State.homeWrite_msixTable (key : Nat) (bs : List Byte) (h : Hint) : (s.homeWrite key bs h).msixTable = s.msixTable := rfl
@[simp] theorem State.homeWrite_msixPending (key : Nat) (bs : List Byte) (h : Hint) : (s.homeWrite key bs h).msixPending = s.msixPending := rfl

/-! ### What an accessor reads after an update -/

@[simp] theorem State.frameAt_putFrame_same (n : Nat) (f : Frame) : (s.putFrame n f).frameAt n = f := by
  simp [State.frameAt, State.putFrame]
theorem State.frameAt_putFrame_other {n m : Nat} (f : Frame) (h : m ≠ n) :
    (s.putFrame n f).frameAt m = s.frameAt m := by
  simp [State.frameAt, State.putFrame, tblGet_put_other _ _ h]
@[simp] theorem State.coreAt_putCore_same (n : Nat) (c : Core) : (s.putCore n c).coreAt n = c := by
  simp [State.coreAt, State.putCore]
theorem State.coreAt_putCore_other {n m : Nat} (c : Core) (h : m ≠ n) : (s.putCore n c).coreAt m = s.coreAt m := by
  simp [State.coreAt, State.putCore, tblGet_put_other _ _ h]
@[simp] theorem State.sliceAt_putSlice_same (n : Nat) (x : Slice) : (s.putSlice n x).sliceAt n = x := by
  simp [State.sliceAt, State.putSlice]
@[simp] theorem State.part_putPart_same (p : Nat) (x : Partition) : (s.putPart p x).part p = x := by
  simp [State.part, State.putPart]
@[simp] theorem State.frameAt_putCore (n m : Nat) (c : Core) : (s.putCore n c).frameAt m = s.frameAt m := rfl
@[simp] theorem State.coreAt_putFrame (n m : Nat) (f : Frame) : (s.putFrame n f).coreAt m = s.coreAt m := rfl
@[simp] theorem State.frameAt_send (m : Msg) (n : Nat) : (s.send m).frameAt n = s.frameAt n := rfl
@[simp] theorem State.coreAt_send (m : Msg) (n : Nat) : (s.send m).coreAt n = s.coreAt n := rfl
@[simp] theorem State.fr_putFr (f : Frame) : (s.putFr f).fr = f := by
  simp [State.fr, State.putFr]
@[simp] theorem State.co_putCo (c : Core) : (s.putCo c).co = c := by
  simp [State.co, State.putCo, State.here]
@[simp] theorem State.fr_putCo (c : Core) : (s.putCo c).fr = s.fr := rfl
@[simp] theorem State.co_putFr (f : Frame) : (s.putFr f).co = s.co := rfl
@[simp] theorem State.putFr_putFr (f g : Frame) : (s.putFr f).putFr g = s.putFr g := by
  simp [State.putFr, State.putFrame]
@[simp] theorem State.putFrame_putFrame (n : Nat) (f g : Frame) : (s.putFrame n f).putFrame n g = s.putFrame n g := by
  simp [State.putFrame]
@[simp] theorem State.putCore_putCore (n : Nat) (c d : Core) : (s.putCore n c).putCore n d = s.putCore n d := by
  simp [State.putCore]

end Sys2Proof.Machine
end

