-- ==== Sys2Proof/Laws/Ops.lean ====
section
/-! SUPPORT. What each shared operation of the core does, said once: retirement, a scalar or floating-point result, the
trap; and that the operations on cells, queues, contexts and traps keep memory in its canonical form. -/

namespace Sys2Proof.Machine

/-! ### Retirement and results -/

/-- A group that the scalar pipeline issued retires: its PC moves past it and nothing else changes. -/
theorem State.retire_scalar (s : State) (h : s.issue.inRep = false) :
    s.retire = s.putFr { s.fr with pc := s.fr.pc + .ofNat 64 (2 * s.issue.len) } := by
  simp [State.retire, h]

/-- A captured group retires: the sequencer moves on and nothing else changes. -/
theorem State.retire_captured (s : State) (h : s.issue.inRep = true) :
    s.retire = s.putFr { s.fr with rep := s.fr.rep.advance } := by
  simp [State.retire, h]

/-- A scalar result: S[d] is set, the PC moves past the group, nothing else changes. -/
theorem State.done1_scalar (s : State) (d : SReg) (w : Word) (h : s.issue.inRep = false) :
    s.done1 d w = s.putFr { s.fr.setS d w with pc := s.fr.pc + .ofNat 64 (2 * s.issue.len) } := by
  unfold State.done1 State.retire State.ws
  simp [h]

/-- A floating-point result: S[d] and the flags of FCSR are set, the PC moves past the group, nothing else changes. -/
theorem State.fpDone_scalar (s : State) (d : SReg) (x : Nat × Flags) (h : s.issue.inRep = false) :
    s.fpDone d x = .next (s.putFr { s.fr.setS d (.ofNat 64 x.1) with
      fcsr := s.fr.fcsr ||| (x.2.setWidth 64 <<< 8), pc := s.fr.pc + .ofNat 64 (2 * s.issue.len) }) := by
  unfold State.fpDone State.retire State.ws State.raise raiseIn
  simp [h]

/-- An integer operation on two registers writes its value to S[d]. -/
theorem State.alu2_eq (s : State) (op : Word → Word → Word) (d a b : SReg) :
    s.alu2 op d a b = .next (s.done1 d (op (s.rs a) (s.rs b))) := rfl

/-- An integer operation on a register and an immediate writes its value to S[d]. -/
theorem State.aluImm_eq (s : State) (op : Word → Word → Word) (d a : SReg) (imm : Word) :
    s.aluImm op d a imm = .next (s.done1 d (op (s.rs a) imm)) := rfl

/-- An integer operation on one register writes its value to S[d]. -/
theorem State.alu1_eq (s : State) (op : Word → Word) (d a : SReg) :
    s.alu1 op d a = .next (s.done1 d (op (s.rs a))) := rfl

/-! ### Traps -/

/-- A precise trap outside a handler, with one in place: the frame enters it and nothing else changes (R309, R310). -/
theorem State.trap_handled (s : State) (cause : Nat) (val : Word) (detail : Nat) (hr : s.issue.inRep = false)
    (hn : s.fr.noHandler = false) :
    s.trap cause val detail = s.putFr (s.fr.enterHandler cause detail s.fr.pc val s.issue.len 0) := by
  have h : (s.frameAt s.cur).noHandler = false := hn
  simp [State.trap, hr, State.takeTrapIn, h, State.putFr, State.fr]

/-- A precise trap inside a handler or without one: a machine check and the kill of the frame (R310, R325). -/
theorem State.trap_killed (s : State) (cause : Nat) (val : Word) (detail : Nat) (hr : s.issue.inRep = false)
    (hn : s.fr.noHandler = true) :
    s.trap cause val detail =
      (s.machineCheck (if s.fr.inS then 2 else 6) cause (dieOf (s.cur / 4)) 0 (s.waiterId s.fr.handle)
        s.fr.pc.toNat).killFrame s.cur := by
  have h : (s.frameAt s.cur).noHandler = true := hn
  simp only [State.trap, hr, State.takeTrapIn, h, State.fr, if_true]
  rfl

/-! ### The canonical form of memory -/

/-- A fold keeps what each of its steps keeps. -/
theorem foldl_keeps {α β : Type} (P : α → Prop) (f : α → β → α) (l : List β) (x : α) (h0 : P x)
    (h : ∀ y b, b ∈ l → P y → P (f y b)) : P (l.foldl f x) := by
  induction l generalizing x with
  | nil => exact h0
  | cons b t ih =>
    exact ih (f x b) (h x b (List.mem_cons_self ..) h0) fun y c hc hy => h y c (List.mem_cons_of_mem _ hc) hy

theorem State.cellPut_wf (s : State) (key off n v : Nat) (h : s.mem.wf = true) : (s.cellPut key off n v).mem.wf = true :=
  s.homeWrite_wf _ _ _ h

theorem State.putCtx_wf (s : State) (h : Nat) (c : Ctx) (hw : s.mem.wf = true) : (s.putCtx h c).mem.wf = true :=
  State.homeWrite_wf _ _ _ _ hw

@[simp] theorem State.crossed_mem (s : State) (a b n : Nat) (r : Bool) : (s.crossed a b n r).mem = s.mem := rfl

@[simp] theorem State.carried_mem (s : State) (w : Waiter) (c n : Nat) (r : Bool) : (s.carried w c n r).mem = s.mem := by
  unfold State.carried
  dsimp only
  split <;> rfl

@[simp] theorem State.deliver_mem (s : State) (r : Req) (a : Answer) : (s.deliver r a).mem = s.mem := by
  unfold State.deliver
  split <;> rfl

@[simp] theorem State.answer_mem (s : State) (r : Req) (a : Answer) (c : Nat) (b x : Bool) : (s.answer r a c b x).mem = s.mem := by
  unfold State.answer
  split
  · rfl
  · simp

@[simp] theorem State.refillWaits_mem (s : State) (n : Nat) : (s.refillWaits n).mem = s.mem := by
  unfold State.refillWaits; split <;> rfl

theorem State.recount_wf (s : State) (c : Nat) (h : s.mem.wf = true) : (s.recount c).mem.wf = true := by
  unfold State.recount
  dsimp only
  split
  · exact s.cellPut_wf _ _ _ _ h
  · exact s.cellPut_wf _ _ _ _ h
  · exact State.cellPut_wf _ _ _ _ _ (s.cellPut_wf _ _ _ _ h)
  · exact s.cellPut_wf _ _ _ _ h
  · exact h

theorem State.unpark_wf (s : State) (w : Wait) (h : s.mem.wf = true) : (s.unpark w).mem.wf = true := by
  unfold State.unpark
  apply State.recount_wf
  simpa using h

theorem State.wake_wf (s : State) (w : Wait) (a : Answer) (h : s.mem.wf = true) : (s.wake w a).mem.wf = true := by
  unfold State.wake
  simpa using s.unpark_wf w h

theorem State.wakeAll_wf (s : State) (ws : List Wait) (a : Wait → Answer) (h : s.mem.wf = true) :
    (s.wakeAll ws a).mem.wf = true :=
  foldl_keeps (fun t : State => t.mem.wf = true) _ _ _ h fun _ _ _ ht => State.wake_wf _ _ _ ht

theorem State.writeRing_wf (s : State) (sl : Nat) (h : s.mem.wf = true) : (s.writeRing sl).mem.wf = true := by
  unfold State.writeRing State.fresh
  exact State.homeWrite_wf _ _ _ .normal h

@[simp] theorem State.pushWait_mem (s : State) (w : Wait) : (s.pushWait w).mem = s.mem := rfl

theorem State.enlist_wf (s t : State) (w : Wait) (m : Bool) (h : s.mem.wf = true) (ht : s.enlist w m = some t) :
    t.mem.wf = true := by
  unfold State.enlist at ht
  dsimp only at ht
  generalize (if (w.who.internal || m) = true then _ else _ : Nat) = room at ht
  split at ht
  · obtain rfl := Option.some.inj ht
    exact State.recount_wf _ _ (by rw [State.pushWait_mem]; exact h)
  · split at ht
    · obtain rfl := Option.some.inj ht
      exact State.recount_wf _ _ (by rw [State.pushWait_mem]; exact s.writeRing_wf _ h)
    · cases ht

theorem State.parkOr_wf (s : State) (w : Wait) (h : s.mem.wf = true) : (s.parkOr w).1.mem.wf = true := by
  unfold State.parkOr
  split
  · exact State.enlist_wf _ _ _ _ h ‹_›
  · exact h

theorem State.advance_wf (s : State) (key off : Nat) (h : s.mem.wf = true) : (s.advance key off).mem.wf = true :=
  s.cellPut_wf _ _ _ _ h

theorem State.queuePush_wf (s : State) (r : Req) (key : Nat) (nw : Bool) (data : List Byte) (h : s.mem.wf = true) :
    (s.queuePush r key nw data).1.mem.wf = true := by
  unfold State.queuePush
  dsimp only
  split
  · split
    · exact State.wake_wf _ _ _ (State.advance_wf _ _ _ (State.advance_wf _ _ _ h))
    · exact State.advance_wf _ _ _ (State.homeWrite_wf _ _ _ .normal h)
  · split
    · exact h
    · exact State.parkOr_wf _ _ h

theorem State.queuePop_wf (s : State) (r : Req) (key : Nat) (nw : Bool) (h : s.mem.wf = true) :
    (s.queuePop r key nw).1.mem.wf = true := by
  unfold State.queuePop
  dsimp only
  split
  · split
    · exact State.wake_wf _ _ _ (State.advance_wf _ _ _ (State.homeWrite_wf _ _ _ .normal (State.advance_wf _ _ _ h)))
    · exact State.advance_wf _ _ _ h
  · split
    · exact h
    · exact State.parkOr_wf _ _ h

theorem State.pushCheck_wf (s : State) (kind unit die addr who pc : Nat) (h : s.mem.wf = true) :
    (s.pushCheck kind unit die addr who pc).mem.wf = true := by
  unfold State.pushCheck
  have H := ({ s with steps := tblPut s.steps mcCell (s.stepOf mcCell + 1) } : State).queuePush_wf { who := .drain 0 } mcCell true
    (mcRecord kind unit die s.mcDropped.toNat addr who pc) h
  dsimp only
  split <;> exact H

theorem State.trace_wf (s : State) (bs : List Byte) (h : s.mem.wf = true) : (s.trace bs).mem.wf = true := by
  unfold State.trace
  dsimp only
  split
  · exact State.homeWrite_wf _ _ _ .normal h
  · exact h

theorem State.traceAs_wf (s : State) (who cell n : Nat) (mine : Bool) (h : s.mem.wf = true) :
    (s.traceAs who cell n mine).mem.wf = true := by
  unfold State.traceAs
  dsimp only
  split
  · split
    · exact h
    · split
      · exact State.pushCheck_wf _ _ _ _ _ _ _ h
      · exact h
  · split
    · exact State.trace_wf _ _ h
    · exact h

theorem State.machineCheck_wf (s : State) (kind unit die addr who pc : Nat) (h : s.mem.wf = true) :
    (s.machineCheck kind unit die addr who pc).mem.wf = true :=
  State.traceAs_wf _ _ _ _ _ (State.pushCheck_wf _ _ _ _ _ _ _ h)

@[simp] theorem State.orphanEngines_mem (s : State) (c : Nat) (h : BitVec 20) : (s.orphanEngines c h).mem = s.mem := rfl
@[simp] theorem State.unpinAll_mem (s : State) (h : BitVec 20) : (s.unpinAll h).mem = s.mem := rfl

theorem State.killContext_wf (s : State) (h : Nat) (f : Frame) (c : Nat) (hw : s.mem.wf = true) :
    (s.killContext h f c).mem.wf = true := by
  unfold State.killContext
  dsimp only
  split
  · rw [State.send_mem, State.unpinAll_mem, State.orphanEngines_mem]
    exact State.putCtx_wf _ _ _ hw
  · rw [State.unpinAll_mem, State.orphanEngines_mem]
    exact State.putCtx_wf _ _ _ hw

theorem State.land_wf (s : State) (key : Nat) (bs : List (Byte × Byte)) (h : s.mem.wf = true) : (s.land key bs).mem.wf = true :=
  State.homeWrite_wf _ _ _ _ h

theorem State.landAll_wf (s : State) (n : Nat) (h : s.mem.wf = true) : (s.landAll n).mem.wf = true := by
  unfold State.landAll
  refine foldl_keeps (fun t : State => t.mem.wf = true) _ _ _ h fun t x _ ht => ?_
  split
  · exact t.land_wf _ _ ht
  · exact ht

@[simp] theorem State.sampleFlags_mem (s : State) (c : Nat) (b : Option Nat) : (s.sampleFlags c b).mem = s.mem := by
  unfold State.sampleFlags
  dsimp only
  split <;> simp

@[simp] theorem State.settleFence_mem (s : State) (n : Nat) : (s.settleFence n).mem = s.mem := by
  unfold State.settleFence
  dsimp only
  split <;> simp

theorem State.settleFences_wf (s : State) (c : Nat) (h : s.mem.wf = true) : (s.settleFences c).mem.wf = true := by
  unfold State.settleFences
  refine foldl_keeps (fun t : State => t.mem.wf = true) _ _ _ h fun t k _ ht => ?_
  dsimp only
  split
  · exact ht
  · simpa using ht

theorem State.killFrame_wf (s : State) (n : Nat) (h : s.mem.wf = true) : (s.killFrame n).mem.wf = true := by
  unfold State.killFrame
  dsimp only
  refine State.settleFences_wf _ _ (foldl_keeps (fun t : State => t.mem.wf = true) _ _ _ (State.killContext_wf _ _ _ _ (by simpa using State.landAll_wf _ n (by simpa using h))) ?_)
  intro t w _ ht
  simpa using ht

theorem State.takeTrapIn_wf (s : State) (n cause detail : Nat) (pc val : Word) (len jent : Nat) (h : s.mem.wf = true) :
    (s.takeTrapIn n cause detail pc val len jent).mem.wf = true := by
  unfold State.takeTrapIn
  dsimp only
  split
  · exact State.killFrame_wf _ _ (s.machineCheck_wf _ _ _ _ _ _ h)
  · simpa using h

/-- A precise trap keeps the form. -/
theorem State.trap_wf (s : State) (cause : Nat) (val : Word) (detail : Nat) (h : s.mem.wf = true) :
    (s.trap cause val detail).mem.wf = true := by
  unfold State.trap
  split
  · exact State.takeTrapIn_wf _ _ _ _ _ _ _ _ (by simpa using h)
  · exact State.takeTrapIn_wf _ _ _ _ _ _ _ _ h

@[simp] theorem State.retire_mem (s : State) : s.retire.mem = s.mem := by
  unfold State.retire
  dsimp only
  split <;> simp

@[simp] theorem State.done1_mem (s : State) (d : SReg) (w : Word) : (s.done1 d w).mem = s.mem := by
  simp [State.done1, State.ws]

end Sys2Proof.Machine
end

