-- ==== Sys2Proof/Tests/Slice0.lean ====
section
/-! SUPPORT. Tests: ill-formed terms that WellFormed refuses, words written out from the spec's encodings, results that
the spec works out, and for every statement with hypotheses a state and operands that meet them. -/

-- One theorem at a time: in parallel their kernel evaluations need far more memory.
set_option Elab.async false

namespace Sys2Proof.Tests

open Sys2Proof Sys2Proof.Machine Sys2Proof.Claims

/-! ### Well-formed terms -/

/-- R31, R100: formats that an instruction refuses. -/
theorem test_wf_formats : [Instr.fcvtFI .f32 .f64 1 2, .fcvtIF .t8 .f32 1 2, .fcvtT .i8 .f32 1 2 true,
    .vadd false .t8 1 2 3 0, .vadd true .f32 1 2 3 0, .vsub true .f64 1 2 3 0, .vmulh .f32 1 2 3 0, .vand .t6 1 2 3 0,
    .vshl .bf16 1 2 3 0, .vfma .i32 1 2 3 0, .vcmpUn .i8 1 2 3 0, .vredSsq .i32 1 2 0, .vexp2 .f64 1 2 0,
    .vscale .i8 1 2 0 3, .vldlStr .t6 1 2 3 0, .vldlGat .f16 1 2 3 0, .vstlSca .t8 1 2 3 0, .tld .f32 1 2 3,
    .tldT .t6 1 2 3, .ttrn .t8 1 2, .acvt .f32 1 2 0, .acvtV .i32 1 2 3, .tmov .i8 1 2 3].all (!·.wf) = true := by
  decide +kernel

/-- R27, R28, R42, R77, R121, R165: operand and immediate limits. -/
theorem test_wf_operands : [Instr.slli 1 2 64, .lih 1 65536, .sext 1 2 3, .ldln 1 2 0 3, .rpt 0 16777216, .rpts 6 1,
    .ldgn 1 2 0 3 {}, .gaddr 31 1 2, .cntadd 31 1 2, .bqpop 31 1 2, .vcpub 31 1, .bscall 0 1 2, .bscall 1 2 64,
    .fence false .core 0, .acvt .t8 1 2 2, .acvt .bf16 1 2 1, .crr 1 0x003, .crw 1 0x12F, .crx 1 2 0x130].map (·.wf) =
    [false, false, false, false, false, false, false, false, false, false, false, false, false, false, false, false,
     false, true, false] := by decide +kernel

/-- R28, R32, R33: ORD fields and immediates that the prefixes left over cannot carry; UDF, and base words 0. -/
theorem test_wf_prefixes : [Instr.ldg 1 2 0 3 { order := .release }, .stg 1 2 0 3 { order := .acquire },
    .amoadd .dword 1 2 3 { hint := .keep }, .cclean 1 { hint := .stream }, .pref 1 { order := .acquire },
    .addi 9 2 (2 ^ 48), .ldg 16 17 (2 ^ 30) 3 { scope := .die }, .li 5 (2 ^ 52), .j (2 ^ 60), .udf 0 0,
    .nonInstructionPattern 0xFE00 0, .fadd .f64 0 8 16, .cpy 0 8 24, .powerOnReset].all (!·.wf) = true := by
  decide +kernel

/-! ### Decoding -/

/-- The decoder reads each instruction from its word. -/
def decodes (l : List (Nat × (Nat × Instr))) : Bool := l.all fun e => decodeTableWord e.1 e.2.1 == some e.2.2

/-- Words of page 0: match value and operands as R26 to R44 and the opcode table place them. -/
theorem test_decode_page_0_0 : decodes
    [(16, 0x0000, .udf 0 0),
     (16, 0x0001, .nop),
     (16, 0x0002, .yield),
     (16, 0x0003, .done),
     (16, 0x0004, .doneAb),
     (16, 0x01A5, .brk 165),
     (16, 0x0BD4, .add 3 6 5),
     (16, 0x0BD5, .sub 3 6 5),
     (16, 0x0BD6, .and 3 6 5),
     (16, 0x0BD7, .or 3 6 5),
     (16, 0x13D4, .xor 3 6 5),
     (16, 0x13D5, .andn 3 6 5),
     (16, 0x13D6, .sll 3 6 5),
     (16, 0x13D7, .srl 3 6 5),
     (16, 0x1BD4, .sra 3 6 5),
     (16, 0x1BD5, .ror 3 6 5),
     (16, 0x1BD6, .slt 3 6 5),
     (16, 0x1BD7, .sltn 3 6 5),
     (16, 0x23D4, .mul 3 6 5),
     (16, 0x23D5, .mulh 3 6 5),
     (16, 0x23D6, .mulhn 3 6 5),
     (16, 0x23D7, .seq 3 6 5),
     (16, 0x2BD4, .div 3 6 5),
     (16, 0x2BD5, .divn 3 6 5),
     (16, 0x2BD6, .rem 3 6 5),
     (16, 0x2BD7, .remn 3 6 5),
     (16, 0x33D4, .min 3 6 5),
     (16, 0x33D5, .max 3 6 5),
     (16, 0x33D6, .minn 3 6 5),
     (16, 0x33D7, .maxn 3 6 5),
     (16, 0x3BDA, .addi 3 6 (-6)),
     (16, 0x43DA, .andi 3 6 (-6)),
     (16, 0x4BDA, .ori 3 6 (-6)),
     (16, 0x53DA, .xori 3 6 (-6)),
     (16, 0x5BDA, .slli 3 6 26),
     (16, 0x63DA, .srli 3 6 26),
     (16, 0x6BDA, .srai 3 6 26),
     (16, 0x73DA, .slti 3 6 (-6)),
     (16, 0x7BC3, .li 3 (-61)),
     (16, 0x83C3, .lih 3 195)] = true := by decide +kernel

/-- Words of page 0: match value and operands as R26 to R44 and the opcode table place them. -/
theorem test_decode_page_0_1 : decodes
    [(16, 0x8BC0, .clz 3 6),
     (16, 0x8BC1, .ctz 3 6),
     (16, 0x8BC2, .popc 3 6),
     (16, 0x8BCB, .sext 3 6 2),
     (16, 0x93DA, .ldl 3 6 (-2) 2),
     (16, 0x9BDA, .ldln 3 6 (-2) 2),
     (16, 0xA3DA, .stl 3 6 (-2) 2),
     (16, 0xAEBA, .beq 6 5 (-6)),
     (16, 0xB6BA, .bne 6 5 (-6)),
     (16, 0xBEBA, .blt 6 5 (-6)),
     (16, 0xC6BA, .bge 6 5 (-6)),
     (16, 0xCEBA, .bltn 6 5 (-6)),
     (16, 0xD6BA, .bgen 6 5 (-6)),
     (16, 0xDDA7, .j (-601)),
     (16, 0xE5A7, .jal (-601)),
     (16, 0xE8C0, .jr 6),
     (16, 0xE8C1, .jalr 6),
     (16, 0xE8C2, .ret 6)] = true := by decide +kernel

/-- Words of page 1: match value and operands as R26 to R44 and the opcode table place them. -/
theorem test_decode_page_1 : decodes
    [(32, 0xFA2103D4, .fadd .f64 3 6 5),
     (32, 0xFA2103D5, .fsub .f64 3 6 5),
     (32, 0xFA2103D6, .fmul .f64 3 6 5),
     (32, 0xFA2103D7, .fdiv .f64 3 6 5),
     (32, 0xFA210BD4, .fmin .f64 3 6 5),
     (32, 0xFA210BD5, .fmax .f64 3 6 5),
     (32, 0xFA210BD6, .fsgnj .f64 3 6 5),
     (32, 0xFA210BC3, .fsqrt .f64 3 6),
     (32, 0xFA2113D4, .fma .f64 3 6 5),
     (32, 0xFA2113D5, .fms .f64 3 6 5),
     (32, 0xFA2113D6, .fnma .f64 3 6 5),
     (32, 0xFA211BD4, .feq .f64 3 6 5),
     (32, 0xFA211BD5, .flt .f64 3 6 5),
     (32, 0xFA211BD6, .fle .f64 3 6 5),
     (32, 0xFA211BD7, .fun .f64 3 6 5),
     (32, 0xFA2123C0, .fclass .f64 3 6),
     (32, 0xFA2123C1, .fabs .f64 3 6),
     (32, 0xFA2123C2, .fneg .f64 3 6),
     (32, 0xFA2B2BC0, .fcvtFI .n32 .f64 3 6),
     (32, 0xFA252BC1, .fcvtIF .i16 .f64 3 6),
     (32, 0xFA212BC2, .fcvtFF .f64 3 6),
     (32, 0xFA352BC7, .fcvtT .t6 .f64 3 6 true)] = true := by decide +kernel

/-- Words of page 2: match value and operands as R26 to R44 and the opcode table place them. -/
theorem test_decode_page_2_0 : decodes
    [(32, 0xFA5203D4, .vadd true .i16 3 6 5 0),
     (32, 0xFA5103D5, .vsub true .n8 3 6 5 0),
     (32, 0xFA4703D6, .vmul .f16 3 6 5 0),
     (32, 0xFA4B03D7, .vmulh .i64 3 6 5 0),
     (32, 0xFA470BD4, .vmin .f16 3 6 5 0),
     (32, 0xFA470BD5, .vmax .f16 3 6 5 0),
     (32, 0xFA460BC2, .vabs .bf16 3 6 0),
     (32, 0xFA4D0BC3, .vneg .f64 3 6 0),
     (32, 0xFA4913D4, .vand .t8 3 6 5 0),
     (32, 0xFA4713D5, .vor .f16 3 6 5 0),
     (32, 0xFA4713D6, .vxor .f16 3 6 5 0),
     (32, 0xFA4713D7, .vandn .f16 3 6 5 0),
     (32, 0xFA441BD4, .vshl .i32 3 6 5 0),
     (32, 0xFA451BD5, .vshr .n32 3 6 5 0),
     (32, 0xFA401BD6, .vsar .i8 3 6 5 0),
     (32, 0xFA431BD7, .vror .n16 3 6 5 0),
     (32, 0xFA4823D4, .vfma .f32 3 6 5 0),
     (32, 0xFA4623D5, .vfms .bf16 3 6 5 0),
     (32, 0xFA4D23D6, .vfnma .f64 3 6 5 0),
     (32, 0xFA472BD4, .vcmpEq .f16 3 6 5 0),
     (32, 0xFA472BD5, .vcmpLt .f16 3 6 5 0),
     (32, 0xFA472BD6, .vcmpLe .f16 3 6 5 0),
     (32, 0xFA482BD7, .vcmpUn .f32 3 6 5 0),
     (32, 0xFA4733D4, .vsel .f16 3 6 5 0),
     (32, 0xFA4733D5, .vperm .f16 3 6 5 0),
     (32, 0xFA4733C2, .vbcst .f16 3 6 0),
     (32, 0xFA4733D7, .vext .f16 3 6 5),
     (32, 0xFA473BC0, .vredSum .f16 3 6 0),
     (32, 0xFA473BC1, .vredMax .f16 3 6 0),
     (32, 0xFA473BC2, .vredMin .f16 3 6 0),
     (32, 0xFA4D3BC3, .vredSsq .f64 3 6 0),
     (32, 0xFA4643C0, .vexp2 .bf16 3 6 0),
     (32, 0xFA4743C1, .vlog2 .f16 3 6 0),
     (32, 0xFA4843C2, .vrcp .f32 3 6 0),
     (32, 0xFA4743C3, .vrsq .f16 3 6 0),
     (32, 0xFA4C4BC8, .vcvt .n64 3 6 0 .f32),
     (32, 0xFA4D53DA, .vscale .f64 3 6 0 (-6)),
     (32, 0xFA495B1A, .vli .t8 3 0 (-6)),
     (32, 0xFA4A63C0, .vldlUnit .t6 3 6 0),
     (32, 0xFA4763D5, .vldlStr .f16 3 6 5 0)] = true := by decide +kernel

/-- Words of page 2: match value and operands as R26 to R44 and the opcode table place them. -/
theorem test_decode_page_2_1 : decodes
    [(32, 0xFA4D63D6, .vldlGat .f64 3 6 5 0),
     (32, 0xFA4A63C3, .vldlBc .t6 3 6 0),
     (32, 0xFA496BC0, .vstlUnit .t8 3 6 0),
     (32, 0xFA4C6BD5, .vstlStr .n64 3 6 5 0),
     (32, 0xFA446BD6, .vstlSca .i32 3 6 5 0),
     (32, 0xFA4073D4, .pand 3 6 5),
     (32, 0xFA4073D5, .por 3 6 5),
     (32, 0xFA4073D6, .pxor 3 6 5),
     (32, 0xFA4073C3, .pnot 3 6),
     (32, 0xFA407BC0, .pcnt 3 6),
     (32, 0xFA407BC1, .pffs 3 6),
     (32, 0xFA407BC2, .pset 3 6)] = true := by decide +kernel

/-- Words of page 3: match value and operands as R26 to R44 and the opcode table place them. -/
theorem test_decode_page_3 : decodes
    [(32, 0xFA6A03D4, .tld .t6 3 6 5),
     (32, 0xFA6903D5, .tldT .t8 3 6 5),
     (32, 0xFA6603D6, .tst .bf16 3 6 5),
     (32, 0xFA600BD4, .tmma 3 6 5),
     (32, 0xFA600BD5, .tmmaBt 3 6 5),
     (32, 0xFA600BD6, .tmmaSp 3 6 5),
     (32, 0xFA601300, .azero 3),
     (32, 0xFA6013C1, .ald 3 6),
     (32, 0xFA6013C2, .ast 3 6),
     (32, 0xFA601343, .aadd 3 2),
     (32, 0xFA671B48, .acvt .f16 3 2 2),
     (32, 0xFA691B55, .acvtV .t8 3 2 5),
     (32, 0xFA6A1BD6, .tmov .t6 3 6 5),
     (32, 0xFA671BC3, .ttrn .f16 3 6),
     (32, 0xFA6025C3, .rpt 5 195),
     (32, 0xFA602D1A, .rpts 5 (-6)),
     (32, 0xFA603000, .rptw),
     (32, 0xFA603001, .rptx)] = true := by decide +kernel

/-- Words of page 4: match value and operands as R26 to R44 and the opcode table place them. -/
theorem test_decode_page_4 : decodes
    [(32, 0xFA8003DA, .ldg 3 6 (-2) 2 {}),
     (32, 0xFA800BDA, .ldgn 3 6 (-2) 2 {}),
     (32, 0xFA8013DB, .stg 3 6 (-2) 3 {}),
     (32, 0xFA831BD4, .amoadd .dword 3 6 5 {}),
     (32, 0xFA831BD5, .amoand .dword 3 6 5 {}),
     (32, 0xFA831BD6, .amoor .dword 3 6 5 {}),
     (32, 0xFA831BD7, .amoxor .dword 3 6 5 {}),
     (32, 0xFA8323D4, .amomin .dword 3 6 5 {}),
     (32, 0xFA8323D5, .amomax .dword 3 6 5 {}),
     (32, 0xFA8323D6, .amominn .dword 3 6 5 {}),
     (32, 0xFA8323D7, .amomaxn .dword 3 6 5 {}),
     (32, 0xFA832BD4, .amoswp .dword 3 6 5 {}),
     (32, 0xFA832BD5, .amocas .dword 3 6 5 {}),
     (32, 0xFA8030CA, .fence true .pod 10),
     (32, 0xFA8038C0, .cclean 6 {}),
     (32, 0xFA8038C1, .cinv 6 {}),
     (32, 0xFA8038C2, .cdisc 6 {}),
     (32, 0xFA8038C3, .pref 6 {}),
     (32, 0xFA8043C0, .cpin 3 6),
     (32, 0xFA8043C1, .cunpin 3 6),
     (32, 0xFA804BD4, .gaddr 3 6 5),
     (32, 0xFA8053D4, .mkga 3 6 5),
     (32, 0xFA805B56, .ldpw 3 2 5 2)] = true := by decide +kernel

/-- Words of page 5: match value and operands as R26 to R44 and the opcode table place them. -/
theorem test_decode_page_5 : decodes
    [(32, 0xFAA003D4, .oinit 3 6 5),
     (32, 0xFAA003C1, .odestroy 3 6),
     (32, 0xFAA003D6, .oquery 3 6 5),
     (32, 0xFAA003C3, .okill 3 6),
     (32, 0xFAA00BD4, .cntadd 3 6 5),
     (32, 0xFAA008D5, .cntaddP 6 5),
     (32, 0xFAA00BD6, .cntwait 3 6 5),
     (32, 0xFAA00BD7, .cntwaitNw 3 6 5),
     (32, 0xFAA013C0, .bararr 3 6),
     (32, 0xFAA013D5, .barwait 3 6 5),
     (32, 0xFAA013C2, .baraw 3 6),
     (32, 0xFAA013D7, .baradj 3 6 5),
     (32, 0xFAA01BC0, .tlkacq 3 6),
     (32, 0xFAA01BC1, .tlkacqNw 3 6),
     (32, 0xFAA01BC2, .tlkrel 3 6),
     (32, 0xFAA023D4, .bqpush 3 6 5),
     (32, 0xFAA023D5, .bqpushNw 3 6 5),
     (32, 0xFAA023D6, .bqpop 3 6 5),
     (32, 0xFAA023D7, .bqpopNw 3 6 5),
     (32, 0xFAA02BC0, .cvwait 3 6),
     (32, 0xFAA02BC1, .cvsig 3 6),
     (32, 0xFAA02BC2, .cvbc 3 6)] = true := by decide +kernel

/-- Words of page 6: match value and operands as R26 to R44 and the opcode table place them. -/
theorem test_decode_page_6 : decodes
    [(32, 0xFAC003C0, .vcpub 3 6),
     (32, 0xFAC003C1, .vcfin 3 6),
     (32, 0xFAC003C2, .vcrsv 3 6),
     (32, 0xFAC003C3, .vcstop 3 6),
     (32, 0xFAC00BD4, .vcsub 3 6 5),
     (32, 0xFAC00BD5, .vcack 3 6 5),
     (32, 0xFAC00B02, .vcchk 3),
     (32, 0xFAC00BD7, .vcunsub 3 6 5)] = true := by decide +kernel

/-- Words of page 7: match value and operands as R26 to R44 and the opcode table place them. -/
theorem test_decode_page_7 : decodes
    [(32, 0xFAE003D4, .cpy 3 6 5),
     (32, 0xFAE003D5, .cpyt 3 6 5),
     (32, 0xFAE003D6, .cpyl 3 6 5),
     (32, 0xFAE00BC0, .twany 3 6),
     (32, 0xFAE00BC1, .twall 3 6),
     (32, 0xFAE00BC2, .tffr 3 6),
     (32, 0xFAE008C3, .tclr 6)] = true := by decide +kernel

/-- Words of page 8: match value and operands as R26 to R44 and the opcode table place them. -/
theorem test_decode_page_8 : decodes
    [(32, 0xFB0003DA, .bscall 3 6 26),
     (32, 0xFB000BD4, .bspart 3 6 5),
     (32, 0xFB000BC1, .bsstat 3 6),
     (32, 0xFB000BC2, .bsabort 3 6)] = true := by decide +kernel

/-- Words of page 9: match value and operands as R26 to R44 and the opcode table place them. -/
theorem test_decode_page_9 : decodes
    [(32, 0xFB2003D4, .xfer 3 6 5),
     (32, 0xFB2003D5, .xferCh 3 6 5),
     (32, 0xFB2003D6, .coll 3 6 5),
     (32, 0xFB2003D7, .mcst 3 6 5),
     (32, 0xFB200BC0, .regwin 3 6),
     (32, 0xFB200BD5, .revwin 3 6 5)] = true := by decide +kernel

/-- Words of page 10: match value and operands as R26 to R44 and the opcode table place them. -/
theorem test_decode_page_10 : decodes
    [(32, 0xFB40031C, .crr 3 28),
     (32, 0xFB4008DC, .crw 6 28),
     (32, 0xFB4013DC, .crx 3 6 28),
     (32, 0xFB401800, .eret),
     (32, 0xFB4019A5, .trap 165),
     (32, 0xFB4023D4, .hndset 3 6 5),
     (32, 0xFB4023D5, .ctxsave 3 6 5),
     (32, 0xFB4023D6, .ctxload 3 6 5),
     (32, 0xFB4023D7, .tlbinv 3 6 5)] = true := by decide +kernel


/-- R33, R36, R44: halfwords that form no instruction: an unlisted major, page 11, a repeated EXT kind, EXT kind 0b11, a
fifth prefix, a refused prefix, a field that must be zero. -/
theorem test_decode_refuses : [[0xF000#16, 0x0BD4#16], [0xFB60#16, 0x0001#16], [0xF801#16, 0xF802#16, 0x0BD4#16],
    [0xFE00#16, 0x0BD4#16], [0xF000#16, 0xF001#16, 0xF002#16, 0xF003#16, 0xF004#16], [0xF800#16, 0x0001#16],
    [0xEB00#16], [0xFA20#16, 0x1004#16]].map decode =
    [some (.nonInstructionPattern 0xF000 0, 2), some (.nonInstructionPattern 0xFB60 0, 2),
     some (.nonInstructionPattern 0xF802 1, 3), some (.nonInstructionPattern 0xFE00 0, 2),
     some (.nonInstructionPattern 0xF004 4, 5), some (.nonInstructionPattern 0xF800 0, 2),
     some (.nonInstructionPattern 0xEB00 0, 1), some (.fma .f32 0 0 1, 2)] := by decide +kernel

/-- R27 to R32: prefixes widen fields, carry the predicate, the order and the immediate, in any order. -/
theorem test_decode_prefixes :
    decode [0xFA83#16, 0xF8A8#16, 0xFCF0#16, 0x1828#16] =
      some (.amoadd .dword 8 9 10 { scope := .dev, order := .both }, 4) ∧
    decode [0xFA80#16, 0xF808#16, 0x5B07#16] = some (.ldpw 3 0 9 3, 3) ∧
    decode [0xFA66#16, 0x1A28#16] = some (.acvt .bf16 2 1 2, 2) ∧
    decode [0xFA60#16, 0x2901#16] = some (.rpts 1 1, 2) ∧
    decode [0xF001#16, 0xFA52#16, 0x0394#16] = some (.nonInstructionPattern 0xF001 0, 3) := by decide +kernel

/-- R37 to R44, R49: the encoder gives back the words of the spec's own examples. -/
theorem test_encode : [encode (.bne 3 4 (-6)), encode (.ret 1), encode (.fma .f64 8 9 10), encode (.vadd true .i16 3 4 5 0),
    encode (.stg 16 18 0 3 {}), encode (.li 5 0x56789ABCDEF0), encode (.lih 5 0x1234)] =
    [[0xB39A#16], [0xE822#16], [0xFA21#16, 0xF8A8#16, 0x1028#16], [0xFA52#16, 0x0394#16],
     [0xFA80#16, 0xF940#16, 0x1043#16], [0xF02B#16, 0xF1E2#16, 0xF357#16, 0xF4DE#16, 0x7DF0#16],
     [0xF012#16, 0x8534#16]] := by decide +kernel

/-! ### Results that the spec works out -/

/-- A context in frame 0 of core 0, class 2, owner of the matrix bank, with a translation of device memory onto itself,
and S[r] as listed. -/
def start (l : List (SReg × Word)) : State :=
  let s := State.reset.placeGroup [0x0001]
  let s1 := s.putCore 0 { s.coreAt 0 with owner := some 0 }
  s1.putFr (l.foldl (fun f e => f.setS e.1 e.2) s1.fr)

/-- A test of the state that an instruction answers. -/
def after (i : Instr) (s : State) (p : State → Bool) : Bool :=
  match exec i s with
  | .next t => p t
  | _ => false

/-- S[5] after an instruction on S[6] = x and S[7] = y. -/
def gives (i : Instr) (x y r : Word) : Bool := after i (start [(6, x), (7, y)]) fun t => t.rs 5 == r

/-- The run of R76. -/
theorem test_division_run :
    (gives (.div 5 6 7) (-7) 2 (-3) && gives (.rem 5 6 7) (-7) 2 (-1) && gives (.divn 5 6 7) 7 0 0xFFFFFFFFFFFFFFFF &&
     gives (.rem 5 6 7) (-7) 0 (-7) && gives (.div 5 6 7) 0x8000000000000000 (-1) 0x8000000000000000 &&
     gives (.rem 5 6 7) 0x8000000000000000 (-1) 0 && gives (.mulh 5 6 7) (-1) (-1) 0 &&
     gives (.mulhn 5 6 7) (-1) (-1) (-2)) = true := by decide +kernel

/-- R75, R77, R78, by hand: wraps, sign changes, shift amounts taken modulo 64, and counts at the ends. -/
theorem test_integer_corners :
    (gives (.add 5 6 7) (-1) 1 0 && gives (.sub 5 6 7) 0 1 (-1) && gives (.sll 5 6 7) 1 65 2 &&
     gives (.sra 5 6 7) (-8) 1 (-4) && gives (.srl 5 6 7) (-1) 63 1 && gives (.ror 5 6 7) 1 1 0x8000000000000000 &&
     gives (.slt 5 6 7) (-1) 0 1 && gives (.sltn 5 6 7) (-1) 0 0 && gives (.minn 5 6 7) (-1) 3 3 &&
     gives (.max 5 6 7) (-1) 3 3 && gives (.andn 5 6 7) 0xFF 0x0F 0xF0 && gives (.clz 5 6) 0 0 64 &&
     gives (.clz 5 6) 1 0 63 && gives (.ctz 5 6) 0 0 64 && gives (.popc 5 6) (-1) 0 64 &&
     gives (.sext 5 6 0) 0x80 0 (-128) && gives (.srai 5 6 63) (-1) 0 (-1)) = true := by decide +kernel

/-- The run of R79. -/
theorem test_li_lih_run :
    (gives (.li 5 0x56789ABCDEF0) 0 0 0x56789ABCDEF0 &&
     after (.lih 5 0x1234) (start [(5, 0x56789ABCDEF0)]) fun t => t.rs 5 == 0x123456789ABCDEF0) = true := by decide +kernel

/-- S[5] and the flags after a page-1 instruction on S[6] = x and S[7] = y. -/
def givesF (i : Instr) (x y r fl : Word) : Bool :=
  after i (start [(6, x), (7, y)]) fun t => t.rs 5 == r && t.fr.fcsr == fl <<< 8

/-- The run of R98, the flags NV, DZ, OF, UF, NX in bits 0 to 4. -/
theorem test_conversion_run :
    (givesF (.fcvtT .t8 .f32 5 6 false) 0x40300000 0 0x56 0 && givesF (.fcvtT .t8 .f32 5 6 false) 0x3F840000 0 0x40 16 &&
     givesF (.fcvtT .t8 .f64 5 6 false) 0x40B3880000000000 0 0x7F 20 &&
     givesF (.fcvtT .t8 .f32 5 6 true) 0xC0 0 0xBF800000 0 &&
     givesF (.fcvtT .t8 .f32 5 6 true) 0xFFFFFFFFFFFFFF80 0 0x7FC00000 1 &&
     givesF (.fcvtIF .i32 .f32 5 6) 0x40200000 0 2 16 &&
     givesF (.fcvtIF .n8 .f64 5 6) 0xC000000000000000 0 0 1) = true := by decide +kernel

/-- R61 to R64, R94 to R97, by hand from IEEE 754: 1 + 2, 1 / 0, 0 / 0, the root of 4 and of -1, the least subnormal, a
fused product, the class of -0, and a comparison with a NaN. -/
theorem test_float_corners :
    (givesF (.fadd .f32 5 6 7) 0x3F800000 0x40000000 0x40400000 0 && givesF (.fdiv .f32 5 6 7) 0x3F800000 0 0x7F800000 2 &&
     givesF (.fdiv .f64 5 6 7) 0 0 0x7FF8000000000000 1 && givesF (.fsqrt .f64 5 6) 0x4010000000000000 0 0x4000000000000000 0 &&
     givesF (.fsqrt .f32 5 6) 0xBF800000 0 0x7FC00000 1 && givesF (.fmul .f32 5 6 7) 0x00800000 0x3F000000 0x00400000 0 &&
     givesF (.fma .f32 5 6 7) 0x40000000 0x40400000 0x40C00000 0 && givesF (.fclass .f32 5 6) 0x80000000 0 8 0 &&
     givesF (.flt .f32 5 6 7) 0x7FC00000 0 0 1 && givesF (.fun .f32 5 6 7) 0x7FC00000 0 1 0 &&
     givesF (.fadd .f32 5 6 7) 0x4B800000 0x3F800000 0x4B800000 16) = true := by decide +kernel

/-- The table of R60: exact values as mantissa and exponent. -/
theorem test_tapered_run :
    [taperedRound 8 (.fin false 11 (-2)), taperedRound 8 (.fin false 33 (-5)), taperedRound 8 (.fin true 39 (-7)),
     taperedRound 8 (.fin false 2560 0), taperedRound 8 (.fin false 3000 0), taperedRound 8 (.fin false 5000 0),
     taperedRound 8 (.fin false 1 (-13)), taperedRound 8 (.fin false 3 (-14)), taperedRound 8 (.inf true),
     taperedRound 6 (.fin false 9 (-3))] =
    [(0x56, 0), (0x40, 16), (0xA4, 16), (0x7E, 16), (0x7F, 16), (0x7F, 20), (0, 24), (1, 24), (0x80, 1), (0x10, 16)] := by
  decide +kernel

/-- R58 to R60: every tapered code but NaR rounds back to itself, and the values of positive codes rise. -/
theorem test_tapered_codes : ([8, 6].all fun n =>
    ((List.range (2 ^ n)).filter (· ≠ 2 ^ (n - 1))).all (fun c =>
      ((taperedDecode n c).map (taperedRound n)) == some (c, 0)) &&
    (List.range (2 ^ (n - 1) - 2)).all fun c => match taperedDecode n (c + 1), taperedDecode n (c + 2) with
      | some v, some w => v.lt w
      | _, _ => false) = true := by decide +kernel

/-- The run after R69: one row of T8 codes against one column, summed exactly. -/
theorem test_matrix_element_run :
    mmaElem { rm := 0, fz := false } none 0
      [(.fin false 4096 0, .fin false 4096 0), (.fin false 1 0, .fin false 1 0), (.fin false 4096 0, .fin true 4096 0)] =
    (0x3F800000, 0) := by decide +kernel

/-- The run after R70: an f32 sum over elements 0 to 3 (lanes 0 to 3). -/
theorem test_reduction_run :
    (let s := start []
     let v : VVal := ((List.range 256).map fun k =>
       ([(0x00, 0), (0x00, 1), (0x80, 2), (0x4B, 3), (0x80, 6), (0x3F, 7), (0x80, 10), (0x3F, 11), (0x80, 14),
         (0xCB, 15)].find? (·.2 == k)).elim (0 : Byte) fun e => BitVec.ofNat 8 e.1).toArray.toVector.cast (by decide +kernel)
     let t := s.putFr ((s.fr.setVAll 4 v).setP 1 15)
     after (.vredSum .f32 5 4 1) t fun u => u.rs 5 == 0x3F800000) = true := by decide +kernel

/-- The run after R121: elements 0 to 3 of an accumulator to bf16, without and with SAT. -/
theorem test_acvt_run :
    ([0x3F808000, 0x3F818000, 0x7F7FFFFF, 0x3FC00000].map fun x => (convert .f32 .bf16 { rm := 0, fz := false } x)) =
    [(0x3F80, 16), (0x3F82, 16), (0x7F80, 20), (0x3FC0, 0)] := by decide +kernel

/-- R36, R81, R309: LDL beyond the scratchpad traps with BOUND (4) at its vector; a misaligned one with ALIGN (3). -/
theorem test_scratchpad_traps :
    ([(0x80000, 4), (0x7FFF9, 4), (0x60000, 6), (0x10001, 3)].all fun e =>
      after (.ldl 5 6 0 3) ((start [(6, .ofNat 64 e.1)]).putFr
          { (start [(6, .ofNat 64 e.1)]).fr with hndbase := 0x10001 }) fun t =>
        t.fr.pc == .ofNat 64 (0x10000 + 0x40 * e.2) && t.fr.trapval == .ofNat 64 e.1 && t.fr.inS &&
        t.fr.trappc == .ofNat 64 (2 ^ 37)) = true := by decide +kernel

/-- R6, R81: a stored doubleword reads back, and its third byte alone, little-endian. -/
theorem test_scratchpad_bytes :
    after (.stl 5 6 0 3) (start [(5, 0x1122334455667788), (6, 0x100)]) (fun t =>
      after (.ldln 8 6 2 0) t fun u => u.rs 8 == 0x66) = true := by decide +kernel

/-- R83, R84: a taken branch, one not taken, and the link of JAL. -/
theorem test_branches :
    (after (.bne 6 7 (-6)) (start [(6, 1)]) (fun t => t.fr.pc == .ofNat 64 (2 ^ 37 - 12)) &&
     after (.beq 6 7 5) (start [(6, 1)]) (fun t => t.fr.pc == .ofNat 64 (2 ^ 37 + 2)) &&
     after (.jal 5) (start []) (fun t => t.fr.pc == .ofNat 64 (2 ^ 37 + 10) && t.rs 1 == .ofNat 64 (2 ^ 37 + 2))) = true := by
  decide +kernel

/-- R267: a core word and an offset to a region-1 address; x = 24 names no core. -/
theorem test_mkga :
    (gives (.mkga 5 6 7) 0xFFFFC0203 0x100 0xFFFFC410C0000100 && gives (.mkga 5 6 7) 24 0 (-1)) = true := by decide +kernel

/-- The run of R266: rank 9 and the element's place in bank 7. -/
theorem test_layout_run :
    (let fields : List (Nat × Nat) :=
      [(0, 0x10000), (64, 6), (68, 1), (72, 1), (96, 40), (120, 24), (144, 1), (168, 1), (192, 1), (216, 1), (248, 256),
       (376, 0xC3), (384, 0x40), (416, 2), (424, 3), (432, 1), (440, 1), (448, 1), (456, 4)]
     let r := (fields.map fun e => e.2 * 2 ^ e.1).foldl (· + ·) 0
     (recFault r == none && (recPlace r [29, 23]).1 == 9 && (recPlace r [29, 23]).2.1 == 0xEFA &&
       recOutside r [40, 23])) = true := by decide +kernel

/-- R258, R259, the run after R259: two AMOCAS on a word that holds 5. -/
theorem test_amocas_run :
    (let s0 := start [(5, 5), (6, .ofNat 64 (2 ^ 37 + 64)), (7, 9)]
     let s := s0.homeWrite (2 ^ 37 + 64) (leBytes 4 5)
     after (.amocas .word 5 6 7 {}) s fun t => t.rs 5 == 5 &&
       after (.amocas .word 5 6 7 {}) t fun u => u.rs 5 == 9 && u.mem.value (2 ^ 37 + 64) 4 == 9) = true := by
  decide +kernel

/-- R71: exact special functions: 2^3, log2 8, 1/4, 1/sqrt 4; 1/0; log2 of -1. -/
theorem test_special_functions :
    (let m : Mode := { rm := 0, fz := false }
     let x (bits : Nat) : FpNum := fF32.decode false bits
     [fF32.exp2 m (x 0x40400000), fF32.log2 m (x 0x41000000), fF32.rcp m (x 0x40800000), fF32.rsq m (x 0x40800000),
      fF32.rcp m (x 0), fF32.log2 m (x 0xBF800000)]) =
    [(0x41000000, 0), (0x40400000, 0), (0x3E800000, 0), (0x3F000000, 0), (0x7F800000, 2), (0x7FC00000, 1)] := by
  decide +kernel

/-! ### Witnesses: states and operands that meet the hypotheses of the statements -/

/-- A frame with a handler region, in class 2. -/
def withHandler (s : State) : State := s.putFr { s.fr with hndbase := 0x10001 }
/-- A frame in S. -/
def inSuper (s : State) : State := s.putFr { s.fr with trapc := 0x80000000, hndbase := 0x10001 }
/-- Frame 0 replaced. -/
def withFr (g : Frame → Frame) : State := (start []).putFr (g (start []).fr)

/-- For RegisterAndImmediateResults, ControlTransfer, ScalarFloatResults, ScalarBitsAndConversions, PredicateResults,
MatrixMultiplyStarts, AccumulatorResults and the vector statements: a group outside a repetition, a class that has
vector registers, and the matrix bank. -/
theorem witness_scalar : (start []).issue.inRep = false ∧ (start []).fr.cls ≠ 0 ∧ hasBank (start []) := by
  and_intros <;> decide +kernel

/-- For DivisionResults and every clause that splits on operands: any two operands can stand in registers. -/
theorem witness_operands (x y : Word) :
    (((start []).ws 6 x).ws 7 y).issue.inRep = false ∧ (((start []).ws 6 x).ws 7 y).rs 6 = x ∧
      (((start []).ws 6 x).ws 7 y).rs 7 = y := by
  refine ⟨by simp [State.ws]; decide +kernel, ?_, ?_⟩ <;> simp [State.rs, State.ws, Frame.getS, Frame.setS]

/-- A break in a frame with a handler; and one at the PC of a frame whose repetition is active. -/
theorem witness_BreakIsPreciseTrap :
    (let s := withHandler (start [])
     s.issue.inRep = false ∧ s.issue.len ≤ 5 ∧ s.fr.inS = false ∧ s.fr.hndbase.toNat % 65536 ≠ 0 ∧ s.fr.capture = none) ∧
    (let s := State.reset.placeGroup [0x0105]
     let t := s.putFr { s.fr with rep := { active := true } }
     (t.frameAt 0).status = .issuing ∧ (t.frameAt 0).stopping = none ∧ (t.frameAt 0).asyncReady = false ∧
     (t.frameAt 0).repRunning = true ∧ (t.frameAt 0).replay = none ∧ t.replaying 0 = false ∧
     (match (({ t with cur := 0 } : State).sampleFlags 0).fetchGroup 0 with
      | .ok e => e.instr == .brk 5 && e.len == 1
      | .error _ => false) = true) := by
  and_intros <;> decide +kernel

/-- Loads and stores at the ends of the scratchpad: the last doubleword of U, and of S. -/
theorem witness_ScratchpadAccess :
    (let s := start [(6, 0x5FFF8)]
     0x5FFF8 + 8 ≤ 0x80000 ∧ s.fr.inS = false ∧ s.poisoned (localKey s.here 0x5FFF8) 8 = false ∧ s.mem.wf = true) ∧
    (let s := inSuper (start [(6, 0x7FFF8)])
     s.fr.inS = true ∧ s.poisoned (localKey s.here 0x7FFF8) 8 = false ∧ s.mem.wf = true) := by
  refine ⟨by decide +kernel, by decide +kernel⟩

/-- BOUND one byte too far, ALIGN inside, ACCESS at the first byte of the save areas and at the last. -/
theorem witness_ScratchpadChecks :
    0x80000 < (start [(6, 0x7FFF9)]).rs 6 + 8 ∧
    ((start [(6, 0x7FFF4)]).rs 6).toNat + 8 ≤ 0x80000 ∧ ((start [(6, 0x7FFF4)]).rs 6).toNat % 8 ≠ 0 ∧
    ((start [(6, 0x60000)]).rs 6).toNat % 8 = 0 ∧ 0x60000 ≤ ((start [(6, 0x60000)]).rs 6).toNat ∧
    ((start [(6, 0x7FFF8)]).rs 6).toNat + 8 ≤ 0x80000 ∧ (start []).fr.inS = false := by decide +kernel

/-- YIELD with no other frame, and with frame 3 READY. -/
theorem witness_ContextControl :
    (∀ k, k < 4 → (start []).here * 4 + k ≠ (start []).cur →
      ((start []).frameAt ((start []).here * 4 + k)).status ≠ .ready) ∧
    (let s := (start []).putFrame 3 { status := .ready }
     s.issue.inRep = false ∧ ∃ k, k < 4 ∧ s.here * 4 + k ≠ s.cur ∧ (s.frameAt (s.here * 4 + k)).status = .ready) := by
  refine ⟨by decide +kernel, by decide +kernel, 3, by decide +kernel⟩

/-- A frame that has nothing outstanding. -/
theorem witness_ChunkEndsAtDone :
    (let s := withFr fun f => { f with job := some 0 }
     s.fr.job = some 0 ∧ s.fr.complete = true ∧ s.co.tmma = none ∧ s.co.fifo = [] ∧ s.slices = [] ∧ s.msgs = [] ∧ s.remotes = []) := by
  decide +kernel

/-- The ends of the finite f32 and bf16 values; and values at and beyond the ends of i8. -/
theorem witness_RoundingAndIntegerLimits :
    (fF32.decode false 0x7F7FFFFF).isNaN = false ∧ (fF32.decode false 1).isNaN = false ∧
    (fBf16.decode false 0xFF80).isNaN = false ∧ (fmtFloat .i8).isNone = true ∧ (fmtTaper .i8).isNone = true ∧
    (roundAt 0 false 127 0 false 0).1 = 127 ∧ (roundAt 0 false 128 0 false 0).1 = 128 ∧
    (roundAt 0 true 128 0 false 0).1 = 128 ∧ (roundAt 0 true 129 0 false 0).1 = 129 ∧ (intRange .i8) = (-128, 127) := by
  decide +kernel

/-- R58 to R60: the runs of magnitude codes at both ends, and values beyond the largest, at and above half the smallest, and between. -/
theorem witness_TaperedConversions :
    (∀ j, j < 6 → (1 : Nat).testBit (7 - 1 - j) = false) ∧ (1 : Nat).testBit (7 - 1 - 6) ≠ false ∧
    (∀ j, j < 7 → (127 : Nat).testBit (7 - 1 - j) = true) ∧ (-30 : Int) ≤ -20 ∧
    finAt false 1 13 (-30) > finAt false 1 12 (-30) ∧ 2 * finAt false 1 (-13) (-30) ≤ finAt false 1 (-12) (-30) ∧
    finAt false 1 (-12) (-30) < 2 * finAt false 3 (-14) (-30) ∧ finAt false 3 (-14) (-30) < finAt false 1 (-12) (-30) ∧
    finAt false 1 (-12) (-30) ≤ finAt false 33 (-5) (-30) ∧ fmtFloat .f16 = some fF16 ∧ fmtFloat .i8 = none ∧ fmtTaper .i8 = none := by
  decide +kernel

/-- Elements of the widest and of the narrowest format. -/
theorem witness_ElementsWrittenUnderPredicate :
    (List.replicate 32 ((2 ^ 64 - 1, 0) : Nat × Flags)).length = fmtCount .f64 ∧ fmtWidth .f64 = 64 ∧
    (List.replicate 256 ((63, 0) : Nat × Flags)).length = fmtCount .t6 ∧ fmtWidth .t6 = 6 := by decide +kernel

/-- For VectorIntegerResults, VectorFloatResults, VectorComparisonResults, VectorMovementResults and VectorReductions: the
formats that their clauses speak of. -/
theorem witness_vector_formats :
    (start []).fr.cls ≠ 0 ∧ fmtFloat .n64 = none ∧ fmtTaper .n64 = none ∧ fmtFloat .bf16 = some fBf16 ∧
    fmtFloat .f64 = some fF64 ∧ fmtTaper .f64 = none ∧ (fF16.decode false 0x7D00).isSNaN = true ∧
    (fF16.decode false 0x7E00).isSNaN = false ∧ (fF16.decode false 0x7E00).isNaN = true := by decide +kernel

/-- For VectorLoads and VectorStores: all elements of each form of a vector access within the scratchpad of U, at its end. -/
theorem witness_VectorLoads :
    (let s := start [(6, 0x5FF00), (7, 8)]
     s.fr.cls ≠ 0 ∧ s.mem.wf = true ∧
     (∀ e, e < 32 → s.fr.localFault (0x5FF00 + 8 * e) 8 8 = none ∧
       s.poisoned (localKey s.here (0x5FF00 + 8 * e)) 8 = false) ∧
     (∀ e, e < 256 → s.fr.localFault (0x5FF00 + 3 * (e / 4)) 3 1 = none) ∧ memBytes .f64 = 8 ∧ memAlign .f64 = 8 ∧
     memBytes .t6 = 3 ∧ memAlign .t6 = 1) := by decide +kernel

/-- Class 0; and a first element that passes before one that fails. -/
theorem witness_VectorAccessChecks :
    (withFr fun f => { f with cls := 0 }).fr.cls = 0 ∧
    (let s := start []
     s.fr.localFault 0x5FFF8 8 8 = none ∧ s.fr.localFault 0x60000 8 8 = some 6 ∧ s.fr.localFault 0x80000 8 8 = some 4 ∧
     s.fr.localFault 0x5FFFC 8 8 = some 3 ∧ s.fr.localFault 4 8 8 = some 3) := by decide +kernel

/-- 32 rows of a tile at the end of the scratchpad of U, an accumulator there; and the first row that fails. -/
theorem witness_TileLoadsAndMoves :
    (let s := start [(6, 0x5F800), (7, 64)]
     (∀ r, r < 32 → s.fr.localFault (rowAt s 6 7 r) 64 16 = none ∧
       s.poisoned (localKey s.here (rowAt s 6 7 r)) 64 = false) ∧
     s.fr.localFault 0x5F000 4096 32 = none ∧ s.poisoned (localKey s.here 0x5F000) 4096 = false ∧ s.mem.wf = true) ∧
    (let s := start [(6, 0x5F840), (7, 64)]
     s.fr.localFault (rowAt s 6 7 31) 64 16 = some 6 ∧ (∀ q, q < 31 → s.fr.localFault (rowAt s 6 7 q) 64 16 = none) ∧
     s.fr.localFault 0x5F020 4096 32 = some 6) := by
  refine ⟨by decide +kernel, by decide +kernel⟩

/-- Pairs of R67 and a pair outside it; scale vectors and a block in place. -/
theorem witness_MatrixMultiplyStarts :
    (let s := withFr fun f => { f with fmta := 0x19, fmtb := 0x0A, scla := 0x5FF80, sclb := 0x100 }
     hasBank s ∧ s.fr.fmta.toNat % 16 = 9 ∧ s.fr.fmtb.toNat % 16 = 10 ∧ s.fr.fmta.getLsbD 4 = true ∧
     s.fr.localFault s.scaleAddrs.1 128 1 = none ∧ s.fr.localFault s.scaleAddrs.2 128 1 = none ∧
     s.poisoned (localKey s.here s.scaleAddrs.1) 128 = false ∧ s.fr.localFault 0x5FA00 1536 32 = none) ∧
    (let s := withFr fun f => { f with fmta := 6, fmtb := 9 }
     hasBank s ∧ s.fr.fmta.toNat % 16 = 6 ∧ s.fr.fmtb.toNat % 16 = 9) := by
  refine ⟨⟨⟨by decide +kernel, by decide +kernel, by decide +kernel⟩, by decide +kernel⟩,
    ⟨by decide +kernel, by decide +kernel, by decide +kernel⟩, by decide +kernel⟩

/-- A multiply in progress, once and twice in error. -/
def multiply (errors : Nat) : Tmma :=
  { frame := 0, kind := .plain, d := 1, a := 2, b := 3, fmta := 6, fmtb := 7, scaled := false, rm := 0, fz := false,
    scaleA := [], scaleB := [], block := [], shadow := Vector.replicate 1024 0, errors := errors }

theorem witness_MatrixMultiplyEnds :
    (let s := (start []).putCore 0 { (start []).coreAt 0 with tmma := some (multiply 1) }
     ((s.coreAt 0).tmma.map (·.errors)) = some 1 ∧ mmaPair 6 7 = some (.bf16, .f16)) ∧ (multiply 2).errors = 2 := by
  decide +kernel

/-- The clauses of R68: a NaN operand; a NaN accumulator; 0 times infinity; products that are infinities of one sign and of both;
finite factors with a sum that is not 0, and with one that is. -/
theorem witness_MatrixElementRule :
    (fF32.decode false 0x7FC00000).isNaN = true ∧ (fF32.decode false 0x7FA00000).isSNaN = true ∧
    (FpNum.fin false 0 0).mul (.inf true) = none ∧ (fF32.decode false 0x3F800000).isNaN = false ∧
    (FpNum.fin false 4 0).mul (.inf true) = some (.inf true) ∧ (FpNum.inf true).mul (.inf true) = some (.inf false) ∧
    finAt false (3 * 5) (0 + 0) 0 = 15 ∧ finAt false (3 * 5) (0 + 0) 0 + finAt true (1 * 15) (0 + 0) 0 = 0 := by decide +kernel

/-- A free bank, its frame's first use and a later one; one that another frame owns; a bank in exchange, with a frame that waits and
one that is told to stop. -/
theorem witness_ClassesAndMatrixBank :
    (let s := (start []).putCore 0 {}
     2 ≤ s.fr.cls.toNat ∧ s.co.owner = none ∧ s.co.swapQueue = [] ∧ s.fr.ownedMatrix = false ∧
     (s.putFr { s.fr with ownedMatrix := true }).fr.ownedMatrix = true) ∧
    (let s := (start []).putCore 0 { owner := some 3 }
     s.co.owner = some 3 ∧ (3 : BitVec 2) ≠ .ofNat 2 s.cur) ∧
    (let s := (start []).putCore 0 { owner := some 0, swapQueue := [3] }
     (s.coreAt 0).swapQueue = [3] ∧ (s.coreAt 0).tmma = none ∧ (s.coreAt 0).hold = false ∧ s.bankOwes 0 = false ∧
     (s.frameAt 3).stopping = none ∧ ((s.putFrame 3 { status := .swap, stopping := some 0x18 }).frameAt 3).stopping.isSome = true ∧
     ((s.putFrame 3 { ownedMatrix := true }).frameAt 3).ownedMatrix = true ∧ (3 : BitVec 2) ≠ 0 ∧ s.recordAt (2 ^ 20 - 1) + 8 ≤ 2 ^ 42 ∧
     s.mem.wf = true) ∧
    (withFr fun f => { f with cls := 1 }).fr.cls = 1 ∧ (Instr.tmma 1 2 3).wf = true ∧ (Instr.vmul .f32 1 2 3 0).wf = true ∧
    isRepeat (.tmma 1 2 3) = false ∧ encode (.tmma 1 2 3) = [0xFA60#16, 0x094C#16] := by
  and_intros <;> decide +kernel

/-- RPT with no repetition and with one; RPTS in a capture and outside one; a suspended repetition. -/
theorem witness_RepeatInstructions :
    (start []).fr.rep.active = false ∧ (start []).fr.capture = none ∧
    (withFr fun f => { f with rep := { active := true, trapv := true } }).fr.rep.trapv = true ∧
    (withFr fun f => { f with rep := { active := true } }).fr.rep.active = true ∧
    (withFr fun f => { f with capture := some { need := 2, count := 3, body := [], stagger := Vector.replicate 6 none, fields := [], fieldPcs := [] } }).fr.capture.isSome = true := by
  decide +kernel

/-- A captured group. -/
def captured (i : Instr) : Captured :=
  { instr := i, pc := 0, len := 2, base := 0, sa := 0x100, sb := 0, scla := 0, sclb := 0, stagger := Vector.replicate 6 none }

/-- The last entry of the first iteration, and of the last. -/
theorem witness_SequencerOrder :
    (let r : Repetition := { active := true, count := 2, body := [captured .nop, captured .nop], nextSlot := 1 }
     r.nextSlot < r.body.length ∧ r.nextIter < r.count ∧ r.nextIter * 2 + r.nextSlot + 1 < r.count * 2 ∧
     ({ r with nextIter := 1 } : Repetition).nextIter * 2 + r.nextSlot + 1 = r.count * 2) := by decide +kernel

/-- A repetition of one group of each of the three shapes. -/
theorem witness_SequencerIssuesStaggeredGroup :
    ([Instr.vadd false .f32 1 2 3 0, .vldlUnit .f32 1 6 0, .tmma 1 2 3].all fun i =>
      let s := withFr fun f => { f with rep := { active := true, count := 2, body := [captured i], nextIter := 1 } }
      let f := s.frameAt 0
      f.status == .issuing && s.chosenFrame 0 == some 0 && !s.replaying 0 && f.late.isEmpty && f.fenceLoads.isEmpty &&
        (s.coreAt 0).owner.isSome && (s.coreAt 0).poisonT == 0 && (s.coreAt 0).poisonA == 0 &&
        f.rep.active && !f.rep.trapv && f.poisonV == 0 && f.poisonP == 0 &&
        ((f.rep.body[f.rep.nextSlot]?).map (·.instr)) == some i && f.rep.nextIter == 1 &&
        ((captured i).stagger[3] : Option Word) == none) = true := by decide +kernel

/-- Two results of a check are the same. -/
def same {α : Type} [DecidableEq α] : Except Nat α → Except Nat α → Bool
  | .ok a, .ok b => a == b
  | .error a, .error b => a == b
  | _, _ => false

theorem same_eq {α : Type} [DecidableEq α] (x y : Except Nat α) (h : same x y = true) : x = y := by
  cases x <;> cases y <;> simp_all [same]

/-- A state in which a page of cells and a plain page stand for device memory: 1 GiB at address 0 as an object page, the
same GiB again at 2^30 as a plain page, both with every permission, in U, under ASID 0; found by a walk. -/
def paged (s : State) : State :=
  { s with mem := [(0, 1), (1, 16), (0x1000, 1), (0x1001, 32), (0x2000, 0x7F), (0x2008, 0x3F)] }

/-- A device with cells, whose frame issues. -/
def cells (l : List (SReg × Word)) : State :=
  let s := paged (start l)
  s.putCore 0 { s.coreAt 0 with tlb := [] }

/-- A region-0 address as a local one. -/
def far (a : Nat) : Word := .ofNat 64 (0x3FFFF * 2 ^ 46 + a)

theorem witness_paged :
    (cells []).mem.wf = true ∧ same ((cells []).place (far (2 ^ 30 + 0x4000)) 8 { r := true, w := true }) (.ok (.mem 0x4000 0)) = true ∧
    same ((cells []).cellPlace (far 0x4020) 32 {}) (.ok (.here 0x4020)) = true ∧ (cells []).agentTarget 0 (far 0x4020) = .here 0x4020 := by
  and_intros <;> decide +kernel

/-- A load at its home, with and without an L1 line; in the own scratchpad, at its end; through a parameter window. -/
theorem witness_GlobalLoads :
    (let s := start []
     same (s.place (.ofNat 64 (2 ^ 37 + 64)) 8 { r := true }) (.ok (.mem (2 ^ 37 + 64) 0)) = true ∧ s.overlaps (2 ^ 37 + 64) 8 = false ∧
     s.poisoned (2 ^ 37 + 64) 8 = false ∧ s.co.l1Get (2 ^ 37 + 64) 8 = none ∧ s.issue.defer = false ∧
     s.linePosted s.here ((2 ^ 37 + 64) / 32) = false ∧
     s.overlapsLate (2 ^ 37 + 64) 8 = false ∧
     same (s.place (far (2 ^ 42 + 0x5FFF8)) 8 { r := true }) (.ok (.pad 0x5FFF8)) = true ∧ s.overlaps (localKey s.here 0x5FFF8) 8 = false) ∧
    (let s := (start []).putCore 0 { l1 := [{ line := 2 ^ 32 + 2, data := List.replicate 32 7 }] }
     s.co.l1Get (2 ^ 37 + 64) 8 = some (List.replicate 8 7) ∧ s.co.l1Poisoned (2 ^ 37 + 64) = false) ∧
    (let s : State := { start [] with issue := { (start []).issue with defer := true } }
     s.issue.defer = true ∧ s.overlapsLate (2 ^ 37 + 64) 8 = false ∧ s.overlapsLate (localKey s.here 0x5FFF8) 8 = false ∧
     (Place.pad 0x5FFF8) ≠ .remote) ∧
    (let s := withFr fun f => { f with pwb := f.pwb.set 3 (.ofNat 64 (2 ^ 37)), pws := f.pws.set 3 16 }
     8 ≤ s.fr.pws[3].toNat ∧ 8 ≤ s.fr.pws[3].toNat - 8 ∧
     same (s.place (s.fr.pwb[3] + 8) 8 { r := true }) (.ok (.mem (2 ^ 37 + 8) 0)) = true ∧ s.fr.pws[3].toNat - 8 < 9 ∧ s.fr.pws[0].toNat < 8) := by
  and_intros <;> decide +kernel

/-- XLATE for a form of R207 that does not exist and for an unmapped page; ALIGN; ACCESS in the save areas; TYPE for a
store to an object page. -/
theorem witness_GlobalAccessChecks :
    addrForm (.ofNat 64 (2 ^ 40)) = false ∧ addrForm (.ofNat 64 (2 ^ 39 - 1)) = true ∧
    (let s := cells []
     same (s.place (.ofNat 64 (2 ^ 40)) 8 { r := true }) (.error 5) = true ∧ same (s.place (.ofNat 64 (2 ^ 36)) 8 { r := true }) (.error 5) = true ∧
     same (s.place (far 0x4001) 2 { r := true }) (.error 3) = true ∧ same (s.place (far (2 ^ 42 + 0x60000)) 8 { w := true }) (.error 6) = true ∧
     same (s.place (far 0x4000) 8 { w := true }) (.error 7) = true ∧ same (s.linePlace (far 0x4000) { r := true }) (.error 7) = true ∧
     same (s.linePlace (far 0x4000) { w := true }) (.error 7) = true) := by
  and_intros <;> decide +kernel

/-- The first and the last journal entry free; a store with a release; one to the own scratchpad. -/
theorem witness_StoresArePosted :
    (let s := start []
     same (s.place (.ofNat 64 (2 ^ 37 + 64)) 8 { w := true } true) (.ok (.mem (2 ^ 37 + 64) 0)) = true ∧ s.fr.journal[0].busy = false ∧
     s.overlapsLate (2 ^ 37 + 64) 8 = false ∧ s.releasable true = true ∧ s.releasable false = true ∧
     s.overlapsLate (localKey s.here 0x5FFF8) 8 = false ∧
     same (s.place (far (2 ^ 42 + 0x5FFF8)) 8 { w := true } true) (.ok (.pad 0x5FFF8)) = true ∧ s.mem.wf = true) ∧
    (let s := withFr fun f => { f with journal := (Vector.replicate 16 { busy := true }).set 15 {} }
     s.fr.journal[15].busy = false ∧ ∀ k : Fin 16, k < 15 → s.fr.journal[k].busy = true) := by
  refine ⟨by decide +kernel, by decide +kernel⟩

/-- A posted store. -/
def store (home : Nat) : Posted :=
  { frame := 0, handle := 0, entry := 15, home := home, addr := 0, size := 8, data := 7, kind := 0, sub := 0, part := 0,
    asid := 0 }

/-- A store to device memory and one to a scratchpad that no window opens; the answers; a load's reply. -/
theorem witness_PostedStoreLifecycle :
    (start []).mayPerform (store 64) = true ∧ (start []).mayPerform { store 64 with release := some true } = true ∧
    (store 64).remote = false ∧ (store 64).kind = 0 ∧ (store 64).size ≤ 8 ∧ regionOf 64 = 0 ∧
    regionOf (localKey 5 0x100) = 1 ∧ (start []).exposed (coreOfKey (localKey 5 0x100)) (localOfKey (localKey 5 0x100)) 8 false = false ∧
    (start []).mem.wf = true ∧ ((start []).frameAt 0).handle = 0 ∧ ((start []).frameAt 0).status ≠ .empty ∧
    ((withFr fun f => { f with status := .parked }).frameAt 0).status = .parked := by decide +kernel

theorem witness_AtomicsAtHome :
    (let s := start [(6, .ofNat 64 (2 ^ 37 + 64))]
     same (s.place (s.rs 6) 8 { r := true, w := true }) (.ok (.mem (2 ^ 37 + 64) 0)) = true ∧ s.overlaps (2 ^ 37 + 64) 8 = false ∧
     s.overlapsLate (2 ^ 37 + 64) 8 = false ∧
     s.poisoned (2 ^ 37 + 64) 8 = false ∧ s.mem.wf = true ∧ s.releasable true = true ∧ s.releasable false = true) := by
  decide +kernel

/-- FENCE with nothing outstanding and with a store outstanding; a journal entry free; pins below, at and beyond their limits. -/
theorem witness_FenceLinesAndPins :
    (let s := start []
     s.fr.urs = 0 ∧ s.fr.freeEntry = some 0 ∧
     same (s.linePlace (.ofNat 64 (2 ^ 37 + 64)) { r := true } true) (.ok (.mem (2 ^ 37 + 64) 0)) = true ∧
     same (s.linePlace (.ofNat 64 (2 ^ 37 + 64)) { w := true } true) (.ok (.mem (2 ^ 37 + 64) 0)) = true ∧
     same (s.linePlace (.ofNat 64 (2 ^ 37 + 64)) { r := true }) (.ok (.mem (2 ^ 37 + 64) 0)) = true ∧
     s.overlapsLate ((2 ^ 37 + 64) / 256 * 256) 256 = false ∧
     0 < (s.part s.fr.part.toNat).residency.toNat ∧ findLine s.lines ((2 ^ 37 + 64) / 256) = none ∧
     0 < (s.sliceAt (sliceOfPA (2 ^ 37 + 64))).ways - 2) ∧
    (withFr fun f => { f with journal := f.journal.set 3 { busy := true } }).fr.urs ≠ 0 ∧
    (let s := (start []).putPart 0 { residency := 0 }
     (s.part s.fr.part.toNat).residency.toNat ≤ 0) ∧
    (let s := (start []).putSlice (sliceOfPA (2 ^ 37 + 64)) { mode := Vector.replicate 16 .scratch }
     (s.sliceAt (sliceOfPA (2 ^ 37 + 64))).ways - 2 = 0) ∧
    (let s : State := { start [] with lines := [{ line := (2 ^ 37 + 64) / 256, pin := some 0 }] }
     (findLine s.lines ((2 ^ 37 + 64) / 256)).bind (·.pin) = some s.fr.handle.toNat) := by
  and_intros <;> decide +kernel

/-- A record that passes (all bytes 0 but the extents, grids and rank), one that fails, and places of records. -/
theorem witness_AddressInstructions :
    (start []).fr.localFault 0x5FFA0 96 32 = none ∧ (start []).fr.localFault 0x60000 96 32 = some 6 ∧
    recFault 0 = some 96 ∧
    (let r := 2 ^ 96 * (5 + 2 ^ 24 + 2 ^ 48 + 2 ^ 72 + 2 ^ 96) + 2 ^ 416 * (1 + 2 ^ 8 + 2 ^ 16 + 2 ^ 24 + 2 ^ 32)
     recFault r = none ∧ recRank r = 1 ∧ recExt r 0 = 5) := by
  and_intros <;> decide +kernel

/-- Cells of both alignments; a job-queue cell, the machine-check queue; the refusals; a full set of locks. -/
theorem witness_ObjectRequestsPark :
    (let s := cells []
     s.releasable true = true ∧ s.replayOn = false ∧ s.dev.ready.getLsbD 3 = false ∧ s.objectsBusy (.here 0x4040) = true ∧
     ({ s with dev := { s.dev with ready := 8 } } : State).objectsBusy (.here 0x4040) = false ∧
     (s.looked (far 0x4040) 64).releasable true = true ∧ (s.looked (far 0x4040) 64).issue.inRep = false ∧
     same (s.cellPlace (far 0x4040) 64 {}) (.ok (.here 0x4040)) = true ∧
     same (s.cellPlace (far 0x4040) 32 { jobQueue := true }) (.ok (.here 0x4040)) = true ∧
     same (s.cellPlace (far 0x4001) 32 {}) (.error 3) = true ∧ s.fr.locks.length < 16 ∧ s.fr.freeEntry = some 0 ∧
     s.padFault 0x100 (cellSize 1) 1 = none ∧ s.padFault 0x80000 (cellSize 1) 1 = some (4, 0) ∧
     s.destroyHeld (s.cellOf 0x4040) = false ∧
     s.issue.inRep = false) ∧
    (let s : State := { cells [] with frames := (cells []).frames.map fun e => (e.1, { e.2 with journal := Vector.replicate 16 { busy := true } }) }
     s.releasable true = false ∧ s.fr.freeEntry = none) ∧
    same (({ cells [] with dev := { dims := 1, k := Vector.replicate 6 2 } } : State).cellPlace (.ofNat 64 (2 ^ 46 + 0x4040)) 32 {}) (.ok .away) = true ∧
    16 ≤ (withFr fun f => { f with locks := List.replicate 16 0 }).fr.locks.length ∧
    ({ (cells []).setTag (0x4000 / 32) 6 with remotes := [{ gateway := 0, dst := 3, cls := 0, seq := 5, addr := 0, what := .settle 0x4000 }] } : State).destroyHeld 0x4000 = true := by
  refine ⟨by decide +kernel, by decide +kernel⟩

/-- A device with one cell of a type at 0x4000, its bytes as given. -/
def withCell (tag : Nat) (bytes : List (Nat × Byte)) : State :=
  let s := (cells []).setTag (0x4000 / 32) tag
  { s with mem := bytes.foldl (fun m e => m.set (0x4000 + e.1) e.2) s.mem }

/-- Counters, free and held locks, empty and full queues, each with nobody waiting. -/
theorem witness_EngineStepsOfCountersLocksQueues :
    (let s := withCell 1 [(0, 5)]
     s.cellOf 0x4000 = 0x4000 ∧ s.mem.wf = true ∧ s.poisoned 0x4000 32 = false ∧ s.poisoned 0x4000 64 = false ∧ s.cellTag 0x4000 = 1 ∧
     s.mem.value 0x4000 8 = 5 ∧ s.waitsOf 0x4000 = [] ∧
     (s.waits.filter fun e => cellSlice e.cell == cellSlice 0x4000).length < 2048) ∧
    (let s := withCell 3 ((List.range 8).map fun k => (8 + k, 0xFF))
     s.cellTag 0x4000 = 3 ∧ s.mem.value 0x4008 8 = noHolder ∧ (s.mem.value 0x4014 4).testBit 0 = false) ∧
    (let s : State := { withCell 3 [] with waits := [{ cell := 0x4000, kind := .lock, who := .ctx 1 }] }
     s.mem.value 0x4008 8 ≠ noHolder ∧ s.mem.value 0x4008 8 = 0 ∧ (s.waitsOf 0x4000).length = 1 ∧
     (Waiter.ctx 0).internal = false ∧ (Waiter.ctx 0).id = 0 ∧ (Waiter.drain 0).internal = true) ∧
    (let s := withCell 4 [(0, 2), (8, 2)]
     s.cellTag 0x4000 = 4 ∧ (s.mem.value 0x4003 1).testBit 0 = false ∧ s.mem.value 0x4000 2 = 2 ∧ s.queueOcc 0x4000 = 2) ∧
    (withCell 4 [(0, 2)]).queueOcc 0x4000 = 0 ∧ ({ cells [] with poison := [0x200] } : State).poisoned 0x4000 (cellSize 0) = true := by
  and_intros <;> decide +kernel

/-- Barriers aborted, short of one arrival, and at the last; a condition; version cells in each state. -/
theorem witness_EngineStepsOfBarriersAndVersions :
    (let s := withCell 2 [(0, 2), (12, 1)]
     s.cellTag 0x4000 = 2 ∧ (s.mem.value 0x400C 4).testBit 0 = true) ∧
    (let s := withCell 2 [(0, 2)]
     s.mem.value 0x400C 4 = 0 ∧ s.mem.value 0x4004 4 + 1 < s.mem.value 0x4000 4 ∧ s.waitsOf 0x4000 = [] ∧ s.combines = [] ∧
     s.mem.value 0x4010 8 = 0 ∧ s.mem.wf = true) ∧
    (let s := withCell 2 [(0, 2), (4, 1)]
     s.mem.value 0x4004 4 + 1 = s.mem.value 0x4000 4) ∧
    (withCell 5 []).cellTag 0x4000 = 5 ∧ (withCell 5 []).waitsOf 0x4000 = [] ∧
    (let s := withCell 6 [(0, 1), (2, 0x20)]
     s.cellOf 0x4000 = 0x4000 ∧ s.poisoned 0x4000 64 = false ∧ s.cellTag 0x4000 = 6 ∧
     s.mem.value 0x4002 1 &&& 0x27 = 0x20 ∧ s.mem.value 0x4000 2 = 1) ∧
    ((withCell 6 [(2, 1)]).mem.value 0x4002 1).testBit 0 = true ∧ (withCell 6 [(2, 2)]).mem.value 0x4002 1 &&& 3 = 2 ∧
    (withCell 6 []).mem.value 0x4002 1 &&& 0x23 = 0 ∧ (withCell 6 []).mem.value 0x4003 1 < 255 := by
  and_intros <;> decide +kernel

/-! ### Messages, kills and collectives -/

/-- The device's context table lies at 2^34, so that records meet no cell and no code. -/
def tabled (s : State) : State := { s with dev := { s.dev with ctxBase := .ofNat 64 (2 ^ 34) } }

/-- A frame that a request has parked, and the reply to it. -/
def asked : State :=
  let s := tabled (withFr fun f => { f with status := .parked, hndbase := 0x10001, parkLen := 1 })
  { s with ctxs := tblPut s.ctxs 0 { state := .resident, frame := 0 } }
/-- A reply to context 0. -/
def answer (d : SReg) (status : BitVec 8) : Reply := { who := .ctx 0, kind := .withValue, d := d, status := status, value := 5 }

/-- Somebody waiting. -/
def aWait (id : Nat) : Wait := { cell := 0, kind := .condition, who := .ctx id }

/-- The reply to a parked frame with d = 5, with d = 0 and OK, and with d = 0 and another status; a context dead, saved
or free; cells of each type that a message finds; a watch on the cell. -/
theorem witness_MessagesReachTheirReceivers :
    (let s := asked
     let c := s.ctxAt (0 % 2 ^ 20)
     c.state = .resident ∧ (s.frameAt c.frame).status = .parked ∧ (s.frameAt c.frame).handle.toNat = 0 ∧
     (s.frameAt c.frame).parkedOn ≠ .slice ∧ (s.frameAt c.frame).noHandler = false ∧ (s.frameAt c.frame).parkLen ≤ 5 ∧
     (answer 5 0).grant = none ∧ (answer 0 8).status ≠ 0 ∧ (answer 0 8).status ≠ 1 ∧ (answer 5 8).objstat = false ∧
     s.replayOn = false) ∧
    (({ cells [] with ctxs := [(0, { state := .dead })] } : State).ctxAt 0).state = .dead ∧
    ((cells []).ctxAt 5).state = .free ∧
    (({ cells [] with ctxs := [(0, { state := .saved })] } : State).ctxAt 0).state = .saved ∧
    ((withCell 1 []).agentTarget 0 (far 0x4000) = .here 0x4000 ∧ (withCell 1 []).cellTag 0x4000 = 1 ∧
     (withCell 1 []).agentTarget 0 (far (2 ^ 32)) = .bad) ∧
    ((withCell 2 []).agentTarget 0 (far 0x4000) = .here 0x4000 ∧ (withCell 2 []).cellTag 0x4000 = 2 ∧
     (withCell 2 []).descPending 0x4000 = false) ∧
    (let s := withCell 3 [(8, 1)]
     s.agentTarget 0 (far 0x4000) = .here 0x4000 ∧ s.cellTag 0x4000 = 3 ∧
     ([(1, 0), (2, 8)].all fun (e : Nat × Nat) => ((s.objStep { who := .ctx e.1, addr := far 0x4000 } 0x4000 .cvRelease).2.map
       fun v => (v.trap, v.status)) == some (none, e.2)) = true ∧
     s.isLocal (far 0x4000) = true) ∧
    (withCell 3 []).cellTag (keyOf (far 0x4000)) = 3 ∧
    (withCell 6 []).cellTag 0x4000 = 6 ∧ (withCell 1 []).cellTag 0x4000 ≠ 6 ∧
    ((cells []).isLocal (far (2 ^ 30)) = true ∧ (cells []).localCard (far 0x4000) 0 = none ∧
     ((cells []).localCard (far (2 ^ 30)) 0).isSome = true ∧
     (let off := jobQueueOff 63 47
      let q := far (ctlKey off)
      addrForm q = true ∧ (cells []).isLocal q = true ∧ keyOf q = ctlKey off ∧ (jobQueueOf? off).isSome = true ∧
      ((cells []).putPart 63 { live := true }).cellTag (keyOf q) = 4)) ∧
    (let s : State := { cells [] with ctxs := [(0, { state := .dead, cleanPending := 2, cleanFor := some (aWait 1) })] }
     ((s.ctxAt 0).cleanFor).isSome = true ∧ 1 < (s.ctxAt 0).cleanPending) ∧
    (withFr fun f => { f with watch := { cell := some (State.reset.cellAddr 0x4000), latest := 1 } }).fr.watch.cell =
      some (State.reset.cellAddr 0x4000) := by
  and_intros <;> decide +kernel

/-- The frame in U and in S; a number past the waiter ids; a context that is free, and a dead one, of this device, to
which nothing is owed; a barrier cell; a contribution's descriptor, good and bad. -/
theorem witness_KillsAndCollectives :
    (let s := start []
     s.releasable true = true ∧ s.fr.inS = false ∧ (s.rs 6).toNat = 0) ∧
    (let s := inSuper (start [(6, .ofNat 64 (2 ^ 38)), (7, 9)])
     s.releasable true = true ∧ s.fr.inS = true ∧ 2 ^ 38 ≤ (s.rs 6).toNat ∧ (s.rs 7).toNat < 2 ^ 38 ∧
     (s.rs 7).toNat / 2 ^ 20 = s.devNum ∧ (s.ctxAt 9).state ≠ .dead) ∧
    (let s : State := { inSuper (start [(7, 9)]) with ctxs := [(9, { state := .dead, image := some {} })] }
     (s.ctxAt 9).state = .dead ∧ (s.ctxAt 9).cleanFor = none ∧ s.owed 9 = false ∧ s.fr.handle.toNat ≠ 9 ∧
     (({} : Frame).locks = [] ∧ ({} : Frame).parkedOn = .none)) ∧
    (let s := withCell 2 []
     same (s.cellPlace (far 0x4000) 32 {}) (.ok (.here 0x4000)) = true ∧ (s.looked (far 0x4000) 32).issue.inRep = false ∧
     (s.looked (far 0x4000) 32).releasable true = true ∧
     ({ s with dev := { s.dev with ready := 8 } } : State).objectsBusy (.here 0x4000) = false ∧ bitsOf (2 ^ 19) 31 19 ≠ 0 ∧ s.padFault 0x100 (max 32 1) 32 = none ∧ s.padFault 0x101 (max 0 1) 32 = some (3, 0)) ∧
    same (({ cells [] with dev := { dims := 1, k := Vector.replicate 6 2 } } : State).cellPlace (.ofNat 64 (2 ^ 46 + 0x4040)) 32 {}) (.ok .away) = true := by
  and_intros <;> decide +kernel

/-! ### Copies -/

/-- A state whose own scratchpad holds bytes from local address 0x100 on. -/
def scratch (l : List (SReg × Word)) (bs : List (Nat × Byte)) : State :=
  let s := start l
  { s with mem := bs.foldl (fun m e => m.set (localKey 0 (0x100 + e.1)) e.2) s.mem }

/-- A block of one CPYL command with all its fields 0: no tag, a tag that is free, one in use; a command with a length
beyond its limit; a FIFO full of commands. A CPY and a CPYT with rank-0 records at 0x200, and a compute bank's slice. -/
theorem witness_CopyPushesAndTags :
    (let s := scratch [] []
     s.issue.inRep = false ∧ s.padFault 0x100 (32 + 64 * 1) 32 = none ∧ s.mem.value (localKey s.here 0x108) 24 = 0 ∧
     s.mem.value (localKey s.here 0x100) 8 = 0 ∧ s.checkCommands .cpyl 0x120 1 0 = (.ok, [{ raw := 0 }]) ∧
     s.co.fifoUsed + 1 ≤ 32 ∧ s.fr.tagsPending.getLsbD 3 = false ∧ s.padFault 0x101 96 32 = some (3, 0) ∧
     s.fr.tags &&& 8 = 0 ∧ s.fr.tagsPending &&& 8 = 0) ∧
    (let s := scratch [] (List.map (fun (e : Nat × Byte) => (e.1 + 0x20, e.2))
       ([(1, 4), (9, 4), (17, 0)] ++ (List.range 5).map fun i => (47 + 3 * i, 1)) ++
       (List.range 5).flatMap fun i => [(0x300 + 12 + 3 * i, 1), (0x300 + 52 + i, 1)])
     (s.checkCommands .cpy 0x120 1 0).1 = .ok) ∧
    (let s := scratch [] (List.map (fun (e : Nat × Byte) => (e.1 + 0x20, e.2))
       ([(1, 4), (33, 1), (13, 8)] ++ (List.range 5).map fun i => (47 + 3 * i, 1)) ++
       (List.range 5).flatMap fun i => [(0x300 + 12 + 3 * i, 1), (0x300 + 52 + i, 1)])
     (s.checkCommands .cpyt 0x120 1 0).1 = .ok) ∧
    ((scratch [] []).padFault 0x100 64 64 = none ∧ (scratch [] []).padFault 0x200 64 32 = none ∧
     ((scratch [] []).checkTransfers .xfer 0x100 1).1 = .ok ∧ ((scratch [] []).checkTransfers .mcst 0x100 1).1 = .ok ∧
     (scratch [] []).groupOk (leValue ((List.replicate 6 [0, 0, 0, 1, 0, 0]).flatten)) = true) ∧
    (let s := withFr fun f => { f with tagsPending := 8, tags := 4 }
     s.fr.tagsPending.getLsbD 3 = true ∧ s.fr.tags &&& 4 ≠ 0 ∧ s.fr.tagsPending &&& 4 = 0 ∧ s.fr.tags &&& 8 = 0 ∧
     s.fr.tagsPending &&& 8 ≠ 0 ∧ (s.fr.tags &&& 0xC).getLsbD 2 = true ∧ ∀ j : Fin 64, j < 2 → (s.fr.tags &&& 0xC).getLsbD j = false) := by
  and_intros <;> decide +kernel

/-- A block of one CPYL command of context 0: 32 bytes from 2^30 to 2^30 + 0x4010, which is two parts. -/
def aBlock : Block :=
  { id := 0, kind := .cpyl, handle := 0, frame := 0, part := 0, asid := 0, user := true, job := none, addr := 0x100,
    tag := 3, te := true, ordf := false, counter := 0,
    cmds := [{ raw := (far (2 ^ 30)).toNat + 2 ^ 64 * (far (2 ^ 30 + 0x4010)).toNat + 2 ^ 128 * 32 }] }
/-- Context 0 resident in frame 0, with one block in its core's FIFO. -/
def queued (b : Block) (g : Frame → Frame) : State :=
  let s := withFr fun f => g { f with status := .ready }
  ({ s with ctxs := [(0, { state := .resident })] } : State).putCore 0 { fifo := [b], tlb := (s.coreAt 0).tlb }

/-- A block that may start; one that has, with its one command; one past it; one that has failed; a bank row write. -/
theorem witness_CopyBlocksRunAndComplete :
    (let s := queued aBlock id
     (s.coreAt 0).fifo[0]? = some aBlock ∧ ((s.coreAt 0).fifo.take 0).all (·.started) = true ∧ (s.frameAt 0).owes aBlock.stamp = false ∧
     aBlock.isTransfer = false ∧ (s.frameAt 0).handle = 0 ∧ (s.ctxAt 0).state = .resident ∧ (s.ctxAt 0).frame = 0 ∧
     (s.frameAt 0).faulta.getLsbD 22 = false) ∧
    (let b := { aBlock with started := true }
     let s : State := { queued b id with mem := (cells []).mem }
     let x : Cmd := b.cmds.headD { raw := 0 }
     let r := State.runUnits 0 0 x false (unitCount b x) 0 s
     b.cmds[b.next]? = some x ∧ b.waiting = false ∧ r.2.isNone = true ∧
     ((r.1.blockById 0 0).map fun y => (y.kind, y.held)) = some (.cpyl, []) ∧ r.1.copyOut 0 0 = false ∧
     s.mem.wf = true ∧ s.remotes = [] ∧ b.moved.contains 0 = false ∧ tblGet? b.held 0 = none) ∧
    (let r := 2 ^ 96 + 2 ^ 416 * (1 + 2 ^ 8 + 2 ^ 16 + 2 ^ 24 + 2 ^ 32)
     let x : Cmd := { raw := ((List.range 5).map fun i => 2 ^ (8 * (47 + 3 * i))).foldl (· + ·) 0, recA := r, recB := r }
     let b := { aBlock with kind := .cpy, started := true, cmds := [x] }
     (State.runUnits 0 0 x false (unitCount b x) 0 (queued b id)).2.isSome = true ∧
     recOutside r (windowCoord x.raw 16 0) = false ∧ recOutside r [1] = true) ∧
    (let b := { aBlock with started := true, next := 1 }
     b.cmds.length ≤ b.next ∧ b.failed = none ∧ b.orphan = false) ∧
    (let b := { aBlock with failed := some (6, 7) }
     b.failed = some (6, 7) ∧ b.isTransfer = false) ∧
    (let s := (queued aBlock id).putSlice 5 { rows := [{ core := 0, block := 0, bank := 3, row := 7, lanes := [(9, true)] }],
                                              mode := (Vector.replicate 16 .cache).set 3 .compute }
     (s.sliceAt 5).rows.length = 1 ∧ ((s.coreAt 0).fifo.find? (·.id == 0)).isSome = true ∧ s.computeBank 5 3 aBlock.part = true ∧
     (s.sliceAt 5).rowsTurn = true ∧ s.mem.wf = true) := by
  and_intros <;> decide +kernel

/-! ### Moss mode -/

/-- A call of an entry with a block. -/
def aCall (e : BitVec 6) (blk : Nat) : Call :=
  { waiter := 0, frame := 0, part := 0, asid := 0, entry := e, block := blk }
/-- The block of an ADD over bank 0: X rows 0 to 7, Y rows 8 to 15, Z rows 16 to 23, its counter at 64. -/
def addBlock : Nat :=
  leValue [1, 0, 0, 0, 8, 0, 16, 0, 8, 8, 8, 0, 0, 0, 0, 0, 64]

/-- A slice's address and one that is none; masks good and bad; a block good and bad, with its counter; an idle slice
with a compute bank, one with a call queued, one with a call running, past its words and past its budget. -/
theorem witness_MossCallsRun :
    (let s := start [(5, .ofNat 64 (2 ^ 43)), (6, .ofNat 64 (2 ^ 43 + 32)), (7, 0x20001)]
     s.issue.inRep = false ∧ s.sliceAddr? (s.rs 5) = some 0 ∧ s.sliceAddr? (s.rs 6) = none ∧ (s.rs 7).toNat % 2 ^ 16 ≠ 0 ∧
     (s.rs 7).toNat / 2 ^ 16 % 4 ≠ 3 ∧ (s.rs 7).toNat < 2 ^ 18 ∧ (s.sliceAt 0).queue = [] ∧ (s.sliceAt 0).run = none ∧
     (s.sliceAt 0).input = [] ∧ s.fr.complete = true ∧ s.dev.fwLeft = [] ∧ s.padFault 0x100 32 32 = none ∧
     s.padFault 0x7FFE1 32 32 = some (4, 0) ∧
     blockOk ((s.sliceAt 0).useOf 2) 2 addBlock = true ∧ blockOk ((s.sliceAt 0).useOf 2) 2 0 = false ∧
     (s.sliceAt 0).extValid.getLsbD 2 = false ∧ s.dev.ready.getLsbD 9 = false ∧
     ({ extValid := 0xFFFF } : Slice).extValid.getLsbD 2 = true ∧ ({ aCall 2 addBlock with orphan := true } : Call).orphan = true) ∧
    (let s := cells []
     s.counterFault (far 0x4000) = none ∧ (withCell 1 []).counterCell (far 0x4000) = true ∧
     (withCell 2 []).counterCell (far 0x4000) = false) ∧
    (let x : Slice := { run := some { call := aCall 2 addBlock, words := 3, issued := 1 }, rows := [{ core := 0, block := 0, bank := 3, row := 7, lanes := [] }] }
     x.waiting = 0 ∧ x.rows ≠ [] ∧ (x.run.map fun r => (r.suspended, r.sinceBoundary, decide (r.issued < r.words))) = some (false, 0, true)) ∧
    (let s := (start []).putSlice 0 { mode := Vector.replicate 16 .compute }
     ∀ k : Fin 16, (aCall 2 addBlock).mask.testBit k.val = true → s.computeBank 0 k.val s.fr.part = true) ∧
    (let s := (start []).putSlice 0 { queue := [aCall 2 addBlock] }
     (s.sliceAt 0).run = none ∧ (s.sliceAt 0).queue = [aCall 2 addBlock]) ∧
    (let x : Slice := {}
     0 < x.wordsOf (aCall 2 addBlock) ∧ 0 < (start []).budgetOf (aCall 2 addBlock) ∧
     ({ call := aCall 2 addBlock, words := 3, issued := 3 } : Run).words ≤ 3) ∧
    (let c := aCall 2 (addBlock + 2 ^ 192 * 4)
     (start []).budgetOf c ≤ 4 ∧ 4 < ({} : Slice).wordsOf c) ∧
    (let s : State := { (start []).putFrame 1 { handle := 1, status := .parked } with ctxs := [(0, { state := .resident, frame := 0 }), (1, { state := .resident, frame := 1 })] }
     let home (c : Call) (n : Nat) : Bool := !c.orphan && c.frame == n && (s.ctxAt (c.waiter % 2 ^ 20)).state == .resident &&
       (s.ctxAt (c.waiter % 2 ^ 20)).frame == n && !(s.frameAt n).arrflt.getLsbD 21
     home (aCall 2 addBlock) 0 && home { aCall 2 addBlock with waiter := 1, frame := 1 } 1 && !(s.frameAt 0).inS &&
       (s.frameAt 0).capture.isNone) := by
  and_intros <;> decide +kernel

/-- A call without saturation and with, of one bit and more. -/
theorem witness_MossEntryResults :
    ((aCall 2 addBlock).field 11 1).testBit 0 = false ∧ 1 ≤ (aCall 2 addBlock).field 10 1 ∧
    ((aCall 2 (addBlock + 2 ^ 88)).field 11 1).testBit 0 = true ∧ ((aCall 2 (addBlock + 2 ^ 88)).field 11 1).testBit 1 = false ∧
    2 ^ (aCall 2 (addBlock + 2 ^ 88)).field 10 1 ≤ (256 : Int) ∧
    ((aCall 2 (addBlock + 2 ^ 88 * 3)).field 11 1).testBit 1 = true ∧ ((aCall 2 (addBlock + 2 ^ 88 * 3)).field 11 1).testBit 0 = true ∧
    (aCall 2 (addBlock + 2 ^ 88 * 3)).field 10 1 = 8 ∧ (-129 : Int) < -2 ^ 7 ∧ (2 : Int) ^ 7 ≤ 128 ∧ (-2 : Int) ^ 7 ≤ -128 := by decide +kernel

/-! ### The fabric -/

/-- A window's descriptor: base 2^37, size 64, every permission; the window that it makes. -/
def descriptor : Nat := 2 ^ 37 + 2 ^ 64 * 64 + 2 ^ 144 * 15 + 2 ^ 192 * 131071
/-- A window. -/
def aWindow (st : WinState) : Window :=
  { base := 2 ^ 37, size := 64, asid := 0, perm := 15, srclo := 0, srchi := 131071, part := 0, state := st }

/-- U and S; descriptors good and bad; windows in each state; a revoking one with nothing in flight. -/
theorem witness_RegistrationWindows :
    (start []).fr.inS = false ∧
    (let s := inSuper (start [(6, 0x100)])
     s.fr.inS = true ∧ s.padFault (s.rs 6).toNat 32 32 = none ∧ s.padFault 0x101 32 32 = some (3, 0) ∧ s.issue.inRep = false) ∧
    windowOk descriptor = true ∧ windowOk 0 = false ∧
    (start []).windowMeets (cmdField descriptor 0 8) (cmdField descriptor 8 8) = false ∧ (start []).freeWindow = some 0 ∧
    (cells []).counterFault (far 0x4000) = none ∧
    (let s : State := { inSuper (start []) with windows := [(0, aWindow .active), (1, aWindow .revoking), (2, aWindow .revoked)] }
     tblGet? s.windows 0 = some (aWindow .active) ∧ tblGet? s.windows 1 = some (aWindow .revoking) ∧
     tblGet? s.windows 2 = some (aWindow .revoked) ∧ (aWindow .revoking).inflight = 0) := by
  and_intros <;> decide +kernel

/-- A packet to this device, whose number is 0 in a pod of no dimensions. -/
def aPacket (kind : BitVec 4) (cls : BitVec 2) (seq : BitVec 11) (pay : List Byte) : Packet :=
  { target := .ofNat 46 (2 ^ 37), dst := 0, src := 3, sep := 0, kind := kind, cls := cls, mc := false, rot := 0, port := 0,
    seq := seq, rtx := false, payload := pay }
/-- A note about SEQ 5 of the flow from gateway 0 to device 3 in class 0. -/
def aNote : List Byte := ({ gateway := 0, cls := 0, dst := 3, first := 5, last := 5 } : FlowNote).bytes
/-- That flow with one packet unacknowledged, or none. -/
def aFlow (l : List Packet) : FlowOut := { dst := 3, cls := 0, gateway := 0, unacked := l }

/-- A packet for another device; one seen before; one in its turn, with and without a window; an ACK and a refusal of
the one packet out; flows purging, empty and idle; ports up, silent and discarding, a pod of one dimension. -/
theorem witness_FabricFlowsAndLinks :
    ({ aPacket 0 0 0 [] with dst := 1 } : Packet).dst ≠ (start []).dev.dev ∧
    (let s := start []
     (aPacket 0 0 0 []).dst = s.dev.dev ∧ kindClass (aPacket 0 0 0 []).kind.toNat 0 = true ∧
     1024 ≤ ((aPacket 0 0 2047 []).seq - (s.flowIn 3 (ingressOf 0) 0).expect).toNat ∧
     (aPacket 0 0 0 []).seq = (s.flowIn 3 (ingressOf 0) 0).expect ∧ (s.flowIn 3 (ingressOf 0) 0).seen = [] ∧
     (s.flowIn 3 (ingressOf 0) 0).held = [] ∧ s.admitting (aPacket 0 0 0 []) = none ∧ s.replayOn = false ∧ s.recording = false ∧
     (aPacket 14 0 0 []).kind = 14 ∧ (aPacket 14 0 0 []).cls ≠ 3) ∧
    ({ start [] with windows := [(0, aWindow .active)] } : State).admitting (aPacket 0 0 0 []) = some 0 ∧
    (let s : State := { start [] with flowsOut := [aFlow [aPacket 0 0 5 []]], remotes :=
       [{ gateway := 0, dst := 3, cls := 0, seq := 5, addr := 0, what := .posted 0 0 2 }] }
     let x := FlowNote.ofBytes aNote
     s.flowOut? x.gateway x.dst x.cls = some (aFlow [aPacket 0 0 5 []]) ∧ s.remotes.length = 1 ∧ x.gateway = 0 ∧ x.dst = 3 ∧
     x.cls = 0 ∧ x.first = 5 ∧ x.last = 5 ∧ x.path = none ∧ s.flowsOut[0]? = some (aFlow [aPacket 0 0 5 []])) ∧
    (let f := { aFlow [] with purging := true }
     let s : State := { start [] with flowsOut := [f] }
     s.flowsOut[0]? = some f ∧ f.purging = true ∧ f.unacked = [] ∧ f.queued = [] ∧
     s.flowOut? (FlowNote.ofBytes aNote).gateway (FlowNote.ofBytes aNote).dst (FlowNote.ofBytes aNote).cls = some f) ∧
    (let s := (start []).putPort 23 { up := true }
     (s.portAt 23).up = true ∧ (s.portAt 23).discarding = false ∧ (s.portAt 23).replayBuffer = [] ∧ (s.portAt 23).replays < 15 ∧
     s.flowOut? 0 0 0 = none) ∧
    (let s : State := { start [] with dev := { dims := 1 } }
     s.podDims ≠ 0 ∧ 23 / (2 * s.podDims) < s.groupPorts ∧ s.pathsFrom 0 0 ≠ [] ∧
     (∀ e ∈ s.pathsFrom 0 0, pathCode e.1 e.2 ∉ (aFlow []).failedPorts ∧ pathCode e.1 e.2 ∉ (aFlow []).marked) ∧
     (let f : FlowOut := { aFlow [] with marked := (s.pathsFrom 0 0).map fun (e : Nat × Nat) => pathCode e.1 e.2, purging := true }
      f.unacked = [] ∧ f.queued = [] ∧ ∀ e ∈ s.pathsFrom 0 0, pathCode e.1 e.2 ∈ f.failedPorts ∨ pathCode e.1 e.2 ∈ f.marked)) ∧
    ({ aPacket 0 0 0 [] with trailer := { errorTail := true } } : Packet).trailer.errorTail = true ∧
    kindClass (aPacket 8 0 0 []).kind.toNat 0 = false ∧ kindClass 12 2 = true ∧ kindClass 8 3 = true ∧
    (FlowNote.ofBytes ({ gateway := 0, cls := 0, dst := 0, first := 5, last := 5 } : FlowNote).bytes).dst = (start []).devNum ∧
    (let s := (start []).putPort 23 { up := true, replayBuffer := [(5, aPacket 0 0 0 [])] }
     (s.portAt 23).replayBuffer = [(5, aPacket 0 0 0 [])] ∧ (s.portAt 23).waiting = [] ∧ 0 < ((5 : BitVec 16) - 4).toNat ∧
     ((5 : BitVec 16) - 32773).toNat ≤ 32768 ∧ (s.portAt 23).replays < 16 ∧ (s.portAt 23).lack + 1 ≠ 5) := by
  and_intros <;> decide +kernel

/-- A transfer that waits; one whose packets are acknowledged; a failed one of a resident context; a branch; barrier
cells and others. -/
theorem witness_TransfersAndCollectives :
    (let b := { aBlock with kind := .xfer, waiting := true }
     let s := queued b id
     (s.coreAt 0).fifo[0]? = some b ∧ (s.coreAt 0).fifo.find? (·.id == b.id) = some b) ∧
    (let b := { aBlock with kind := .xfer, sent := true }
     let s := queued b id
     (s.coreAt 0).fifo[0]? = some b ∧ b.cmds = [{ raw := cmdField aBlock.cmds[0].raw 0 24 }] ∧ b.next = 0 ∧ s.dataOut 0 b.id = false ∧
     (cmdField aBlock.cmds[0].raw 56 4).testBit 0 = false ∧ b.failed = none) ∧
    (let b := { aBlock with kind := .xfer, failed := some (6, 7) }
     let s := queued b id
     (s.coreAt 0).fifo[0]? = some b ∧ b.orphan = false ∧ (s.ctxAt b.handle.toNat).state = .resident ∧
     (s.ctxAt b.handle.toNat).frame = b.frame) ∧
    (withCell 2 []).cellTag 0x4000 = 2 ∧ (withCell 1 []).cellTag 0x4000 ≠ 2 ∧ (withCell 2 []).descPending 0x4000 = false ∧
    aBlock.early = false ∧ ({ aPacket 2 0 0 [] with members := [(3, 7)] } : Packet).members = [(3, 7)] ∧
    (let s : State := { start [] with dev := { dims := 2, k := #v[4, 4, 0, 0, 0, 0] } }
     let p := aPacket 2 0 0 []
     s.nextBranch { p with members := [(1, 7), (5, 8)] } = ([(1, 7), (5, 8)], []) ∧
     s.nextBranch { p with members := [(1, 7), (4, 8)] } = ([(1, 7)], [(4, 8)])) := by
  and_intros <;> decide +kernel

/-! ### Traps, control registers and system instructions -/

/-- U with a handler and without one, and S. -/
theorem witness_TrapEntryOrKill :
    (let s := withHandler (start [])
     s.issue.inRep = false ∧ 1 ≤ s.issue.len ∧ s.issue.len ≤ 5 ∧ s.fr.inS = false ∧ s.fr.hndbase.toNat % 65536 ≠ 0) ∧
    (start []).fr.hndbase.toNat % 65536 = 0 ∧ (withFr fun f => { f with job := some 0, stopFor := [aWait 1] }).fr.job = some 0 ∧
    (inSuper (start [])).fr.inS = true := by
  and_intros <;> decide +kernel

/-- S with TRAPV clear and set; U with a handler and a COPY trap pending; S with a refused entry, the first and the last. -/
theorem witness_TrapReturnAndAsynchronousTraps :
    (let s := inSuper (start [])
     s.issue.inRep = false ∧ s.issue.len ≤ 5 ∧ s.fr.inS = true ∧ s.fr.rep.trapv = false) ∧
    (inSuper (withFr fun f => { f with rep := { active := true, trapv := true } })).fr.rep.trapv = true ∧
    (let r := (inSuper (withFr fun f => { f with rep := { trapv := true } })).fr.rep
     r.trapv = true ∧ r.active = false) ∧
    ((start []).fr.inS = false ∧ (withHandler (start [])).fr.hndbase.toNat % 65536 ≠ 0) ∧
    (let x := (withHandler (withFr fun f => { f with status := .ready, pendCopy := some 7 })).frameAt 0
     x.status = .ready ∧ x.stopping = none ∧ x.inS = false ∧ x.capture = none ∧ x.hndbase.toNat % 65536 ≠ 0 ∧
     x.pendJournal = [] ∧ x.pendCopy = some 7 ∧ x.asyncReady = true) ∧
    (let x : Frame := { pendJournal := [(15, 0x1F)] }
     ∀ e ∈ x.pendJournal, e.1 < 16) ∧
    (let x := (inSuper (withFr fun f => { f with journal := Vector.replicate 16 { busy := true, refused := true } })).frameAt 0
     x.inS = true ∧ x.journal[0].refused = true ∧ x.journal[15].refused = true) ∧
    (0x200000 : Word).getLsbD 21 = true ∧ (0x100000 : Word).getLsbD 21 = false ∧ (0x80010000 : Word).getLsbD 16 = true ∧
    (0x80010000 : Word).getLsbD 31 = true := by
  and_intros <;> decide +kernel

/-- An index that is not listed; registers that U may and may not read or write, in U and in S. -/
theorem witness_ControlRegisterAccess :
    3 ∉ crIndices ∧ 0x130 ∉ crIndices ∧ 0x12F ∈ crIndices ∧ (start []).fr.inS = false ∧ (inSuper (start [])).fr.inS = true ∧
    0x101 ∈ crIndices ∧ crReadS 0x101 = true ∧ crWriteU 0x101 = false ∧ 1 ∈ crIndices ∧ crReadS 1 = false ∧ crWriteU 1 = true ∧
    (([1, 0x10, 0x12, 0x32, 0x100, 0x101, 0x106].all fun i =>
      ((start []).crValue 0 (start []).fr i).isSome && ((start []).fr.writeCr i 3).isSome) = true) ∧
    4 < (5 : Word).toNat % 8 ∧ ((start []).fr.writeCr 1 5).isNone = true ∧ (start []).mmaOut = false ∧
    ((inSuper (start [])).putCore 0 { (start []).coreAt 0 with tmma := some (multiply 0) }).mmaOut = true := by decide +kernel

/-- U and S; a handler region that is refused; contexts in each state; TLBINV's operands. -/
theorem witness_SupervisorControl :
    (start []).fr.inS = false ∧
    (let s : State := { inSuper (start [(6, 9)]) with ctxs := [(9, { state := .runnable }), (10, { state := .dead }),
                                                               (11, { state := .dead, cleaned := true }),
                                                               (13, { state := .resident, frame := 5 })] }
     s.issue.inRep = false ∧ s.fr.inS = true ∧ s.fr.complete = true ∧ (s.rs 6).toNat < 2 ^ 20 ∧ (s.ctxAt 9).state = .runnable ∧
     9 ≠ s.fr.handle.toNat ∧ (s.ctxAt 10).state = .dead ∧ (s.ctxAt 10).cleaned = false ∧ (s.ctxAt 11).cleaned = true ∧
     (s.ctxAt 12).state = .free ∧ (s.ctxAt 13).state = .resident ∧ (s.ctxAt 13).frame ≠ s.cur ∧ 13 ≠ s.fr.handle.toNat ∧ s.postedOut = false ∧ (0 : Word).toNat % 65536 = 0 ∧ (0x20000 : Word).toNat / 2 ^ 16 = 2) := by
  refine ⟨by decide +kernel, by decide +kernel⟩

/-- HNDSET: two pages of a supervisor region that a walk finds pinned. -/
theorem witness_SupervisorControl_handler :
    (let s := inSuper (cells [])
     let t : State := { s with mem := s.mem.set 0x200E 1 }
     t.hndStatus (far (2 ^ 30 + 1)) (far (2 ^ 30 + 0x10001)) = 0 ∧ s.hndStatus (far (2 ^ 30 + 1)) (far (2 ^ 30 + 1)) = 13) := by
  decide +kernel

/-- Two frames of a core, the first issuing; a quad that asks for nothing, or for one block; a table to walk; resets. -/
theorem witness_CoreAndDieEvents :
    (let s := ((withFr fun f => { f with status := .issuing }).putFrame 1 { status := .ready }).putCore 0 { issuing := some 0 }
     (s.coreAt 0).issuing = some (.ofNat 2 0) ∧ (s.frameAt 0).status = .issuing ∧ (s.frameAt 0).repRunning = false ∧
     (s.frameAt 1).status = .ready ∧ (s.frameAt 1).stopping = none ∧ (s.frameAt 1).level = (s.frameAt 0).level) ∧
    (quadOf 0 = 0 ∧ State.reset.fetchRequests 0 = [] ∧ quadOf (4095 - 8 * 33) = 4095 - 8 * 33 - 33) ∧
    (let s := (start []).putCore 0 { issuing := some 0, tlb := ((start []).coreAt 0).tlb }
     (s.fetchRequests 0).length = 1 ∧ (s.quadAt 0).aged = []) ∧
    coreExists 0 = true ∧ coreExists (3 * 1024 + 23 * 32 + 23) = true ∧ coreExists 24 = false ∧
    (let s := cells []
     ((s.walkBy (s.walkerRead (dieOf 0 * 48 + (0 ^^^ bitsOf 0x1000 31 16) % 48)) 0 0x1000).leaf.isSome = true) ∧ (s.coreAt 0).tlb = [] ∧
     (s.quadAt (quadOf 0)).l2tlb = []) ∧
    (State.reset.poison.contains 5 = false ∧ (start []).frames.length = 1 ∧ ((start []).frameAt 0).status ≠ .empty) ∧
    (State.reset.frames = [] ∧ State.reset.ctxs = []) ∧
    ((State.reset.putQuad 0 { resetting := true }).quadAt (quadOf 33)).resetting = true ∧
    (let s : State := { State.reset with fenced := 3, electing := true }
     State.reset.jobs = [] ∧ State.reset.fenced.getLsbD 3 = false ∧ s.fenced.getLsbD 0 = true ∧ s.fenced.getLsbD 2 = false ∧ s.electing = true ∧ ∀ j : Fin 2, s.fenced.getLsbD j = true) := by
  and_intros <;> decide +kernel

/-! ### Work -/

/-- A card of one job of `count` records at entry 2^37 for die 0, and the job that it makes. -/
def aCard (count : Byte) (completion : Byte) : List Byte :=
  [0, 0, 0, 0, 0x20, 0, 0, 0] ++ List.replicate 8 0 ++ [16, 0, 0, 0, count, 0, 0, 0, 1, 0, 0, 2, 1, 0, 0, 0] ++
    List.replicate 16 0 ++ [completion] ++ List.replicate 15 0
/-- That job, active. -/
def aJob (count completion : Byte) : Job :=
  { id := 0, part := 0, level := 0, asid := 0, card := aCard count completion, windows := List.replicate 8 0, layouts := [],
    eligible := 4, status := .active }
/-- A partition that lives, every function READY. -/
def working (js : List Job) : State :=
  let s := (paged State.reset).putPart 0 { live := true, weight := 1, guarantee := 9216, ceiling := 9216 }
  { s with jobs := js, dev := { s.dev with ready := 0x7FF } }

/-- Queues empty and with a card; cards good and bad. -/
theorem witness_JobsAndChunks_cards :
    (State.reset.queueOcc (ctlKey (jobQueueOff 63 47)) = 0) ∧
    (let s := working []
     (s.part 0).live = true ∧ s.dev.ready.getLsbD 4 = true ∧ s.electing = false ∧
     (s.checkCard 0 0 (aCard 1 0) none).isSome = true ∧ (s.checkCard 0 0 (aCard 1 1) none).isNone = true) ∧
    ({ aJob 1 0 with status := .waiting } : Job).status = .waiting ∧ (working []).activeSet 0 0 = [] := by
  and_intros <;> decide +kernel

/-- A job whose queue holds one card, popped by its level's turn. -/
theorem witness_JobsAndChunks_pop :
    (let key := ctlKey (jobQueueOff 0 0)
     let s := working []
     let t : State := { s with mem := [(key, 1), (key + 2, 3), (key + 8, 1)].foldl (fun m e => m.set e.1 (.ofNat 8 e.2)) s.mem }
     let u := t.setTag (key / 32) 4
     u.queueOcc key ≠ 0 ∧ (((u.objStep { who := .drain 0 } key (.pop true)).2.map (·.code)) = some 0) ∧ u.jobs = []) := by
  decide +kernel

/-- A chunk that is dealt to a frame; one that loads; ends of chunks. -/
theorem witness_JobsAndChunks_deal :
    (let j := { aJob 1 0 with card := (aCard 1 0).set 28 0x31, quad := some 0 }
     let s := working [j]
     s.activeSet 0 0 = [j] ∧ j.gang = false ∧ j.refines = false ∧ j.redeal = [] ∧ s.freeHandle = some 0 ∧
     s.pickFrame j (fun m => s.dealable j m && s.forChunk 0 0 m) = some 0 ∧ s.replayOn = false ∧
     s.inTurn 0 0 = [j]) ∧
    (let j := aJob 1 0
     let s := (working [j]).putFrame 0 { status := .loading, job := some 0, records := 1 }
     (s.frameAt 0).status = .loading ∧ (s.frameAt 0).job = some j.id ∧ s.jobAt j.id = some j ∧ j.layoutCount = 0) ∧
    (let j := { aJob 1 64 with running := 1, dealt := 1 }
     j.allDealt = true ∧ j.completion ≠ 0 ∧ j.refines = false ∧ j.status = .active) := by
  and_intros <;> decide +kernel

/-- A gang of two that finds the two free frames of quad 0, both at the choice of its level. -/
def aGang : Job := { aJob 2 0 with card := ((aCard 2 0).set 28 0x31).set 27 6, quad := some 0 }

theorem witness_JobsAndChunks_gang :
    (let s := ((List.range 6).map (· + 2) ++ (List.range 8).map (· + 128)).foldl
       (fun (t : State) n => t.putFrame n { status := .ready, part := 1 }) (working [aGang])
     s.activeSet 0 0 == [aGang] && aGang.gang && decide (s.held 0 + aGang.count ≤ (s.part 0).ceiling.toNat) &&
       (s.gangSpace aGang fun m => s.forChunk 0 0 m) == [0, 1] &&
       (match s.gangFrames aGang [0, 1] aGang.count [] with
        | some fs => (s.dealGang aGang fs).isSome
        | none => false)) = true := by decide +kernel

/-- A quantum that ends with nothing waiting, and with a job waiting for the frame; a frame told to stop; a saved
context that a free frame takes back; a gang's drain. -/
theorem witness_ContextSwitches :
    (start []).waitingFor 0 0 0 = false ∧
    (let s := (working [aJob 1 0]).putFrame 0 { status := .ready, quantum := 1 }
     (s.frameAt 0).status = .ready ∧ (s.frameAt 0).quantum ≠ 0 ∧ (s.frameAt 0).stopping = none ∧ s.inGang 0 = false ∧
     s.waitingFor 0 0 0 = true) ∧
    (let f : Frame := { status := .ready, stopping := some 0x18 }
     f.savable = true ∧ f.stopFor = [] ∧ ((start []).putFrame 0 f).inGang 0 = false) ∧
    (let s : State := { working [] with ctxs := [(7, { state := .runnable, image := some {} })] }
     s.restorable 7 0 = true ∧ s.mayRestore 7 0 = true ∧ (s.gangOf 7).isNone = true ∧ s.choice 0 = some (0, 0) ∧ s.firstSaved 0 (0, 0) = some 7 ∧ s.electing = false ∧
     (s.ctxAt 7).tmma = none ∧ (s.ctxAt 8).image = none) ∧
    (let j := { aJob 1 0 with drain := some 0, gangFrames := [0] }
     let s := (working [j]).putFrame 0 { status := .ready, stopping := some 0x18, job := some 0 }
     s.jobAt 0 = some j ∧ s.jobs = [j] ∧ (s.frameAt 0).savable = true ∧ (s.frameAt 0).drainc = 0) ∧
    (let j := { aJob 1 0 with drain := some 1, drainRt := true, gangFrames := [0] }
     j.drain = some 1 ∧ j.drainRt = true ∧ ((working [j]).frameAt 0).job ≠ some 0 ∧ (working [j]).waits = []) := by
  and_intros <;> decide +kernel

/-- A saved gang of two whose frames are free; a gang that waits for a frame of its quad, with a saved context of a lower level. -/
theorem witness_ContextSwitches_gang :
    (let s : State := { working [{ aGang with dealt := 2, running := 2 }] with ctxs := [7, 8].map fun h => (h, { state := .runnable, image := some { job := some 0 } }) }
     let ps := [(7, 0), (8, 1)]
     !s.electing && s.mayRestore 7 0 && s.choice 0 == some (0, 0) && (s.gangOf 7).map (·.id) == some 0 &&
       s.gangPlaces (s.gangContexts 0) == some ps && ps.all fun e => s.yields e.2 (0, 0) &&
         (match s.firstSaved e.2 (0, 0) with | some x => (s.gangOf x).map (·.id) == some 0 | none => true)) = true ∧
    (let g : Job := { aGang with level := 3 }
     let s : State := { working [g] with ctxs := [(7, { state := .runnable, image := some {} })] }
     (((s.ctxAt 7).image.map fun f => f.level.toNat) == some 0 && g.gangWaits && g.part == 0 && s.admits g 0) = true) := by
  and_intros <;> decide +kernel

/-! ### The control region and the host -/

/-- A mapping command running: valid, of one unit, over a unit that is busy and one that is not, and invalid; partitions
that live and do not, whose pages are within capacity or beyond; functions READY and not; images. -/
theorem witness_ControlRegion :
    (let m : MapCmd := { curOp := 1, running := true }
     m.running = true ∧ m.done = false ∧ m.valid = true ∧ mapUnits m.curOp = 1 ∧ m.curOp.toNat % 4 = 1 ∧ m.held = [] ∧
     ({ m with curOp := 2 } : MapCmd).valid = true ∧ ({ m with curOp := 3 } : MapCmd).valid = false ∧
     (State.reset.unitBusy 0 = false) ∧
     ({ State.reset with pages := [(0, .object)], tags := [(5, 1)] } : State).unitBusy 0 = true) ∧
    ((working []).part 0).live = true ∧ ((working []).part 1).live = false ∧
    ((working []).putFrame 0 { status := .ready }).partHeld 0 = true ∧
    (let s := State.reset.putPart 0 { qstore := .ofNat 64 (2 ^ 38), levels := Vector.replicate 48 { capacity := 1 } }
     let us := (levelPages 0 ((s.part 0).qstore.toNat / 65536) (s.part 0).levels.toList).flatMap fun e =>
       (List.range e.2.2.pages).map (e.2.1 + ·)
     us ≠ [] ∧ us.all (fun u => (u + 1) * 65536 ≤ Config.capacity && (tblGet? s.bound u).isNone &&
          tblGet? s.pages u != some .object) = true) ∧
    (let s := State.reset.putPart 0 { qstore := .ofNat 64 (2 ^ 47), levels := Vector.replicate 48 { capacity := 1 } }
     let us := (levelPages 0 ((s.part 0).qstore.toNat / 65536) (s.part 0).levels.toList).flatMap fun e =>
       (List.range e.2.2.pages).map (e.2.1 + ·)
     us.any (fun u => Config.capacity < (u + 1) * 65536) = true) ∧
    (let d : DevRegs := { fwRunning := true, ready := 0x200, fwAddr := 1 }
     d.ready.getLsbD 9 = true ∧ d.fwLeft = [] ∧ d.fwAddr.toNat % 32 ≠ 0 ∧ d.fwHeld = [] ∧ d.ready.getLsbD 0 = false ∧
     d.failed.getLsbD 0 = false ∧ d.trctl.getLsbD 0 = false ∧ d.ready.getLsbD 4 = false) ∧
    (State.reset.slices = [] ∧ (({ trctl := 4 } : DevRegs).trctl.getLsbD 2 = true)) ∧
    ((State.reset.putSlice 0 { queue := [aCall 16 0] }).sliceAt 0).extensionBusy = true ∧
    (let d : DevRegs := { fwLeft := [0, 191] }
     d.fwLeft = [0] ++ 191 :: [] ∧ d.fwLeft.filter (· ≠ 191) ≠ [] ∧ ({ fwLeft := [191] } : DevRegs).fwLeft.filter (· ≠ 191) = [] ∧
     ({} : Slice).extensionBusy = false ∧ ({} : Slice).input = []) ∧
    (({ attestAsked := true, ready := 0x100 } : DevRegs).ready.getLsbD 8 = true ∧ State.reset.dev.attestAsked = false) := by
  and_intros <;> decide +kernel

/-- A partition that holds nothing, every level's queue empty. -/
theorem witness_ControlRegion_remove :
    (let s := working []
     (s.part 0).live = true ∧ s.partHeld 0 = false ∧ s.mem.wf = true ∧
     ((List.range 48).map fun l => ctlKey (jobQueueOff 0 l)).all (fun q =>
       s.queueOcc q == 0 && !(s.cellGet q 3 1).testBit 0 && (s.waitsOf q).isEmpty) = true) := by
  and_intros <;> decide +kernel

/-- A function that no image serves does not fail the boot's check, and one that everything else is READY for may start. -/
theorem witness_ControlRegion_start :
    bootFails 0 = false ∧ ∀ o, o < 11 → o ≠ 0 → Config.dependsOn 0 o = true → (0x7FE : BitVec 16).getLsbD o = true := by
  refine ⟨?_, fun o h0 h1 _ => ?_⟩
  · simp only [bootFails, List.any_eq_false]
    intro x _
    have : kindFunction (imageKind x) ≠ some 0 := by unfold kindFunction; split <;> decide
    simp [this]
  · have : ∀ o : Fin 11, o.val ≠ 0 → (0x7FE : BitVec 16).getLsbD o.val = true := by decide
    exact this ⟨o, h0⟩ h1

/-- Wherever an image passes its checks, a state that holds it at 0 and is asked to load it meets what FIRMWARE_LOAD completes
under: which images pass, the constants of Config say. -/
theorem witness_ControlRegion_firmware (image : List Byte) (ok : extensionOk image = true) (good : imageSigned image = true)
    (short : image.length ≤ Config.capacity) :
    ∃ s : State, s.dev.fwRunning = true ∧ s.dev.fwLeft = [] ∧ s.dev.ready.getLsbD 9 = true ∧
      (let size := 128 + Config.imageBodyLength (s.mem.read s.dev.fwAddr.toNat 128) + 96
       s.dev.fwAddr.toNat % 32 = 0 ∧ s.dev.fwAddr.toNat + size ≤ Config.capacity ∧
        extensionOk (s.mem.read s.dev.fwAddr.toNat size) = true ∧ imageSigned (s.mem.read s.dev.fwAddr.toNat size) = true) := by
  have hn : image.length = 128 + Config.imageBodyLength (image.take 128) + 96 := by
    simp only [imageSigned, Bool.and_eq_true, beq_iff_eq] at good
    omega
  have hr (n : Nat) (h : n ≤ image.length) : (State.reset.mem.write 0 image).read 0 n = image.take n :=
    Memory.read_write image (by decide) h
  refine ⟨{ State.reset with mem := State.reset.mem.write 0 image, dev := { fwRunning := true, ready := 0x200 } }, rfl, rfl,
    (by decide : (0x200 : BitVec 16).getLsbD 9 = true), rfl, ?_⟩
  have h0 : ((0 : Word).toNat) = 0 := rfl
  simp only [h0, hr 128 (by omega), ← hn, hr _ (Nat.le_refl _), List.take_length]
  exact ⟨by omega, ok, good⟩

/-- R366, from FIPS 180-4: the digest of "abc"; and from RFC 5639: the base point lies on the curve. -/
theorem test_digest_and_curve :
    leValue (sha384 [0x61, 0x62, 0x63]).reverse = 0xcb00753f45a35e8bb5a03d699ac65007272c32ab0eded1631a8b605a43ff5bed8086072ba1e7cc2358baeca134c825a7 ∧
    onCurve curveG = true ∧ onCurve (curveG.1, curveG.2 + 1) = false := by decide +kernel

/-- The report lies within device memory. -/
theorem witness_HostRequests_report : reportAt + 56 ≤ Config.capacity := by
  have h : Config.reportPage % (Config.capacity / 4096) < Config.capacity / 4096 := Nat.mod_lt _ (by decide +kernel)
  simp only [reportAt, firmwarePage]
  have : Config.capacity / 4096 * 4096 = Config.capacity := by decide +kernel
  omega

/-- A busy slot with a request for the cell at 0x4000. -/
def aSlot (op : Byte) : HostSlot :=
  { bytes := (List.range 128).map fun k => (k, if k = 0 then op else if k = 9 then 0x40 else 0), busy := true }

/-- Reads and writes at the end of device memory and past it, and on a marked page; slots free and busy, the first and
the last; requests to functions that are not READY, to a cell of another type, and that are performed. -/
theorem witness_HostRequests :
    (Config.capacity - 32 + 32 ≤ Config.capacity ∧ Config.capacity < Config.capacity + 1) ∧
    (({ State.reset with pages := [(0, .object)] } : State).onMarkedPage 65535 1 = true ∧ State.reset.onMarkedPage 0 32 = false) ∧
    (slotBytes * (slotCount - 1) < slotCount * slotBytes ∧ (State.reset.slotAt 0).busy = false ∧ (State.reset.slotAt 0).bytes = []) ∧
    (let s : State := State.reset.putHostSlot 0 (aSlot 1)
     let x := s.slotAt 0
     x.busy = true ∧ s.oldestSlot x = true ∧ x.field 24 8 % 32 = 0 ∧ x.field 1 3 = 0 ∧ x.field 32 32 = 0 ∧ x.field 0 1 = 1 ∧
     x.op = some (.cntAdd 0 0) ∧ s.hostCell x = some 0x4000 ∧ s.replayOn = false ∧ s.hostReady 0x4000 = false) ∧
    ([(0, 4, 1), (1, 1, 0), (2, 1, 0), (3, 1, 0)].all fun (e : Nat × (Nat × Nat)) =>
      let s : State := { withCell e.2.1 [(0, 1), (1, 0)] with pages := [(0, .object)], dev := { ready := 8 } }
      let x := aSlot (.ofNat 8 e.1)
      s.hostReady 0x4000 && (match x.op with
        | some op => !s.notObject 0x4000 op && ((s.objStep { who := .drain 0 } 0x4000 op).2.map (·.trap)) == some none &&
            ({ s with pages := [] } : State).notObject 0x4000 op
        | none => false)) = true := by
  and_intros <;> decide +kernel

/-! ### The whole machine -/

/-- Instructions of pages 0 and 1 that may run ahead of a repetition. -/
theorem witness_ScalarFrame : ([Instr.add 1 2 3, .li 5 7, .fadd .f32 1 2 3, .fmul .f64 1 2 3].all runsAhead) = true := by
  decide +kernel

/-- ADD and STG fetched from device memory at 2^37 by frame 0, with nothing that holds them. -/
theorem witness_StepRunsDecodedGroup :
    ([Instr.addi 5 5 1, .stg 16 18 0 3 {}].all fun i =>
      let hs := encode i
      let s := State.reset.placeGroup hs
      let f := s.frameAt 0
      let c := s.coreAt 0
      decode hs == some (i, hs.length) && i.wf && s.agenda == [.issue 0] && s.chosenFrame 0 == some 0 && !s.stopped &&
      !s.dev.frozen && f.status == .issuing && !f.asyncReady && !f.repRunning && f.capture.isNone && !s.replaying 0 &&
      f.fenceLoads.isEmpty && f.fenceStores.isEmpty && f.late.isEmpty && f.replay.isNone && f.poisonS == 0 &&
      f.poisonV == 0 && f.poisonP == 0 && c.poisonT == 0 && c.poisonA == 0 &&
      (List.range (2 * hs.length)).all fun k =>
        same (s.fetchPlace 0 (f.pc + .ofNat 64 k)) (.ok (2 ^ 37 + k)) &&
        ((tblGet? c.fetchBuffer ((2 ^ 37 + k) / 32)).map fun line => line.getD ((2 ^ 37 + k) % 32) 0) ==
          (hs.flatMap fun h => leBytes 2 h.toNat)[k]?) = true := by decide +kernel

/-- A memory in its canonical form, and a step from it. -/
theorem witness_MemoryStaysCanonical :
    (let s := State.reset.placeGroup [0x0001]
     s.mem.wf = true ∧ (match step s with | .next t => t.mem.wf | _ => false) = true) := by decide +kernel

/-- The owner of the bank; S with nothing outstanding, its operands naming a context that is not resident; U with a handler
and a pending trap. -/
theorem witness_SystemFormsComplete :
    hasBank (start []) ∧
    (let s := inSuper (start [(6, 9), (7, 1)])
     s.issue.inRep = false ∧ s.fr.inS = true ∧ s.fr.complete = true ∧ (s.rs 7).toNat ≤ 1 ∧
     (s.ctxAt (s.rs 6).toNat).state ≠ .resident ∧ s.postedOut = false) ∧
    (let s := withHandler (start [])
     s.issue.inRep = false ∧ s.issue.len ≤ 5 ∧ s.fr.inS = false ∧ s.fr.hndbase.toNat % 65536 ≠ 0) ∧
    (let x := (withHandler (withFr fun f => { f with status := .ready, pendJournal := [(15, 6)] })).frameAt 0
     x.status = .ready ∧ x.stopping = none ∧ x.asyncReady = true ∧ (∀ e ∈ x.pendJournal, e.1 < 16) ∧
     x.hndbase.toNat % 65536 ≠ 0) := by
  and_intros <;> decide +kernel

/-- A state that has not stopped, with its memory in its canonical form. -/
theorem witness_EveryFormAnswers : (start []).mem.wf = true ∧ (start []).stopped = false := by decide +kernel

/-- A stopped device and a frozen one. -/
theorem witness_ResetAndStandstill :
    ({ State.reset with stopped := true } : State).stopped = true ∧
    (let s : State := { State.reset with dev := { frozen := true } }
     s.stopped = false ∧ s.dev.frozen = true ∧ s.agenda = [] ∧ ({ s with agenda := [.issue 0] } : State).agenda = [.issue 0]) := by decide +kernel

/-! ### More witnesses: the clauses of each statement that stand in other states -/

/-- Nonzero exact values of which one is a code, one lies between two codes, one is the midpoint, one is tiny and one lies past the
largest; operands of each operation that are zeros, infinities and NaNs; the ordered and the unordered pair. -/
theorem witness_RoundingAndIntegerLimits_operations :
    (magLt 3 0 7 (-1) ∧ ¬magLt 7 (-1) 3 0) ∧ (codeMag fF16 1, codeMag fF16 fF16.infBits) = ((1, -24), (1024, 6)) ∧
    (¬magLt 4097 (-1) 2048 0 ∧ magLt 4097 (-1) 2049 0 ∧ ¬magLt 2048 5 2048 5 ∧ magLt 1 (-25) 1 (-24)) ∧
    ((FpNum.nan true).isNaN = true ∧ (FpNum.nan true).isSNaN = true ∧ (FpNum.inf true).mul (.fin false 0 0) = none ∧
     (FpNum.fin false 3 0).mul (.inf true) ≠ none) ∧
    (fF32.decode true 1).isZero = true ∧ (fF32.decode false 0x80000000).isNeg = true ∧
    (fF32.decode false 0xBF800000).lt (fF32.decode false 0x3F800000) = true ∧
    (fF16.emin ≤ 3 ∧ (3 : Int) ≤ fF16.bias ∧ finAt false 3 0 0 = 3 * 2 ^ (-(0 : Int)).toNat) := by
  simp only [magLt]; decide +kernel

/-- Scale vectors and a block that run past the scratchpad, stand askew, or lie in the save areas. -/
theorem witness_MatrixMultiplyStarts_traps :
    (let s := withFr fun f => { f with fmta := 0x19, fmtb := 0x0A, scla := 0x7FFA0, sclb := 0x60000 }
     s.fr.inS = false ∧ 0x80000 < s.scaleAddrs.1 + 128 ∧ s.scaleAddrs.2 % 1 = 0 ∧ 0x60000 < s.scaleAddrs.2 + 128 ∧
     s.fr.localFault s.scaleAddrs.2 128 1 = some 6 ∧ s.fr.localFault s.scaleAddrs.1 128 1 = some 4 ∧ s.issue.inRep = false) ∧
    (start []).fr.localFault 0x110 1536 32 = some 3 ∧ (start []).fr.localFault 0x5FFE0 1536 32 = some 6 ∧
    (start []).fr.localFault 0x7FFE0 1536 32 = some 4 := by decide +kernel

/-- A capture: of one group of two, of the last; a group that may not be captured; a stagger that its group has no field for. -/
theorem witness_RepeatInstructions_capture :
    (let c : Capture := { need := 2, count := 3, body := [], stagger := Vector.replicate 6 none, fields := [3], fieldPcs := [(3, (0, (2, 0)))] }
     let s := withFr fun f => { f with capture := some c }
     s.fr.capture = some c ∧ s.fr.rep.active = false ∧ c.body.length + 1 < c.need ∧ ({ c with need := 1 } : Capture).need ≤ 1 ∧ 0 < c.count ∧
     capturable (.vldlUnit .f32 1 6 0) = true ∧ fieldAllowed (.vldlUnit .f32 1 6 0) 3 = true ∧
     fieldAllowed (.vadd false .f32 1 2 3 0) 3 = false ∧ capturable (.vadd false .f32 1 2 3 0) = true ∧ capturable .eret = false ∧
     capturable (.tmma 1 2 3) = true ∧ isMatrixGroup (.tmma 1 2 3) = true) := by decide +kernel

/-- The quad's flags: nothing noted yet, in S; and a multiply of the frame running. -/
theorem witness_ControlRegisterAccess_flags :
    (let s := inSuper (start [])
     s.fr.inS = true ∧ (s.quadAt (quadOf s.here)).flagHist = [] ∧ (s.quadAt (quadOf s.here)).resetting = false ∧
     (s.frameAt 0).status ≠ .empty ∧ s.fr.watch.cell = none) ∧
    (withFr fun f => { f with watch := { f.watch with cell := some 64 } }).fr.watch.cell.isSome = true ∧ (2 : Nat) ∈ crIndices := by
  decide +kernel

/-- A wait of a context for the cell at 0x4000. -/
def waits (k : WaitKind) (id arg : Nat) (p : List Byte) : Wait := { cell := 0x4000, kind := k, who := .ctx id, arg := arg, payload := p }
/-- `withCell` with waiters. -/
def waited (tag : Nat) (bytes : List (Nat × Byte)) (ws : List Wait) : State := { withCell tag bytes with waits := ws }
/-- The waiters of the cell at 0x4000 are contexts, none in the spill ring. -/
def contextsWait (s : State) : Bool := (s.waitsOf 0x4000).all fun w => !w.who.internal && !w.spilled

/-- Waiters of a counter that an add reaches and that it does not; a parked pop of an empty queue and a parked push of a full one. -/
theorem witness_EngineSteps_handover :
    (let s := waited 1 [(0, 5)] [waits .counter 1 6 [], waits .counterZero 2 0 [], waits .counter 3 9 []]
     contextsWait s = true ∧ (s.waitsOf 0x4000).length = 3 ∧ (s.mem.value 0x400A 2).testBit 0 = false ∧ s.mem.wf = true) ∧
    (let s := waited 4 [(0, 2)] [waits .pop 1 0 []]
     contextsWait s = true ∧ s.queueOcc 0x4000 = 0 ∧ s.mem.value 0x4000 2 = 2 ∧ (s.mem.value 0x4003 1).testBit 0 = false ∧
     0x4000 + 32 ≤ s.slotKey 0x4000 (s.mem.value 0x4008 4 % 2)) ∧
    (let s := waited 4 [(0, 2), (8, 2)] [waits .push 1 0 (List.replicate 8 7)]
     contextsWait s = true ∧ s.queueOcc 0x4000 = 2 ∧ s.mem.value 0x4000 2 = 2 ∧ s.slotSize 0x4000 = 8 ∧
     s.mem.value 0x4008 4 < 2 * (2 ^ 32 / 2) ∧ s.mem.value 0x4004 4 < 2 * (2 ^ 32 / 2)) := by
  and_intros <;> decide +kernel

/-- A cell's image: of the fields at the offsets given, all others zero. -/
def image (fields : List (Nat × Byte)) : List Byte := (List.range 64).map fun k => (tblGet? fields k).getD 0

/-- A place that holds no cell; images that make a cell of each type, the queue's over one mapped slot page. -/
theorem witness_EngineSteps_init :
    (let s := cells []
     s.cellTag 0x4000 = 0 ∧ regionOf 0x4000 = 0 ∧ 0x4000 % 64 = 0 ∧ s.cellOf 0x4000 = 0x4000 ∧ s.tagOf (0x4000 / 32 + 1) = 0 ∧
     s.cellTag 0x4000 ≠ 7) ∧
    (let g (im : List Byte) (o n : Nat) : Nat := leValue ((im.drop o).take n)
     g (image [(10, 5)]) 10 2 < 8 ∧ g (image [(10, 5)]) 20 12 = 0 ∧
     (g (image [(0, 4), (12, 2)]) 0 4 ≠ 0 ∧ g (image [(0, 4), (12, 2)]) 12 4 < 8 ∧ g (image [(0, 4)]) 16 8 % 32 = 0) ∧
     g (image []) 24 8 = 0 ∧ (g (image [(8, 64)]) 8 8 ≠ 0 ∧ g (image [(8, 64)]) 8 8 % 32 = 0 ∧ g (image [(8, 64)]) 16 16 = 0)) ∧
    (let s : State := { cells [] with mem := (cells []).mem.set 0x2010 0xBF }
     let im := (image [(0, 3), (2, 1)]).take 16 ++ leBytes 8 (far (2 ^ 31)).toNat ++ List.replicate 40 0
     leValue ((im.drop 16).take 8) % 65536 = 0 ∧ leValue ((im.drop 24).take 8) = 0 ∧ s.bound = [] ∧
     s.slotPages 0 (leValue ((im.drop 16).take 8)) ((3 * (8 * 2 ^ 1) + 65535) / 65536) = some [0]) ∧
    same ((cells []).cellImage 6 (image [(9, 1), (16, 32)]) 0) (.error 9) = false := by
  and_intros <;> decide +kernel

/-- Cells that ODESTROY finds: with waiters, a lock held and free, a queue open and closed, a version cell idle and not. -/
theorem witness_EngineSteps_destroy :
    (contextsWait (waited 2 [(0, 2)] [waits .arrival 1 0 []]) = true) ∧
    ((withCell 3 ((List.range 8).map fun k => (8 + k, 0xFF))).mem.value 0x4008 8 = noHolder ∧
     (withCell 3 [(8, 1)]).mem.value 0x4008 8 ≠ noHolder) ∧
    (((withCell 4 [(0, 2), (3, 1)]).mem.value 0x4003 1).testBit 0 = true ∧ ((withCell 4 [(0, 2)]).mem.value 0x4003 1).testBit 0 = false) ∧
    (((withCell 6 []).mem.value 0x4002 1).testBit 5 = false ∧ (withCell 6 []).mem.value 0x4004 4 = 0 ∧
     ((withCell 6 [(2, 0x20)]).mem.value 0x4002 1).testBit 5 = true) := by
  and_intros <;> decide +kernel

/-- A barrier one arrival short with waiters, and one that an adjustment by -1 completes; conditions with a waiter; version cells
whose ACK lets a producer go, whose subscriber leaves, that finish, that a refire card stands behind, that take a subscriber. -/
theorem witness_EngineSteps_waiters :
    (let s := waited 2 [(0, 2), (4, 1), (8, 3)] [waits .arrival 1 3 []]
     contextsWait s = true ∧ s.mem.value 0x400C 4 = 0 ∧ s.mem.value 0x4010 8 = 0 ∧ s.combines = [] ∧
     ((s.waitsOf 0x4000).all fun w => w.kind == .arrival && w.arg == s.mem.value 0x4008 4) = true ∧
     s.mem.value 0x4004 4 + 1 = s.mem.value 0x4000 4 ∧ 1 ≤ (s.mem.value 0x4000 4 : Int) + (-1 : Word).toInt ∧
     (s.mem.value 0x4000 4 : Int) + (-1 : Word).toInt ≤ s.mem.value 0x4004 4) ∧
    (let s := waited 5 [(8, 64)] [waits .condition 1 0 [], waits .condition 2 0 []]
     contextsWait s = true ∧ (s.waitsOf 0x4000).length = 2 ∧ (Waiter.ctx 5).internal = false) ∧
    (let s := waited 6 [(0, 1), (4, 1)] [waits .producer 1 0 []]
     contextsWait s = true ∧ s.mem.value 0x4000 2 = 1 ∧ s.mem.value 0x4004 1 = 1 ∧ (s.mem.value 0x4002 1).testBit 0 = false ∧
     (1 - 1) % 1 = 1 % 1) ∧
    (let s := withCell 6 [(0, 1), (2, 0x24), (3, 1), (4, 1)]
     0 < s.mem.value 0x4003 1 ∧ s.mem.value 0x4002 1 &&& 0x27 = 0x24 ∧ s.mem.value 0x4000 2 < 65535 ∧ s.mem.value 0x4004 1 < 255 ∧
     (s.mem.value 0x4002 1).testBit 5 = true ∧ s.waitsOf 0x4000 = []) := by
  and_intros <;> decide +kernel

/-- Replies: of each kind, with a payload, a lock granted and a lock given up, a watch set and cleared, and a trap. -/
theorem witness_MessagesReachTheirReceivers_replies :
    (let r := answer 5 0
     r.trap = none ∧ ({ r with kind := .plain } : Reply).kind = .plain ∧ ({ r with kind := .pop, payload := [1] } : Reply).status = 0 ∧
     ({ r with kind := .query, d := 0 } : Reply).kind = .query ∧ ({ r with kind := .raw, payload := [1] } : Reply).payload ≠ [] ∧
     ({ r with grant := some 64 } : Reply).grant = some 64 ∧ ({ r with unlock := some 64 } : Reply).unlock = some 64 ∧
     ({ r with watch := some (.set 64 3 true) } : Reply).watch = some (.set 64 3 true) ∧
     ({ r with trap := some (7, 64) } : Reply).trap = some (7, 64) ∧ ({ r with trap := some (0x13, 64) } : Reply).trap = some (0x13, 64) ∧
     (7 : BitVec 8) ≠ 0x13) ∧
    (let s := asked
     let t := s.putFrame 0 { s.frameAt 0 with locks := [64], watch := { cell := some 64 } }
     64 ∈ (t.frameAt 0).locks ∧ (t.frameAt 0).watch.cell = some 64 ∧ (t.frameAt 0).noHandler = false ∧ (t.frameAt 0).parkLen ≤ 5) := by
  and_intros <;> decide +kernel

/-- BSABORT: a call of the context queued, and one of it running, at a row boundary and, where the firmware has none there, not. -/
theorem witness_MossCallsRun_abort :
    (let s : State := { (start [(6, .ofNat 64 (2 ^ 43))]).putSlice 0 { queue := [aCall 2 addBlock] } with ctxs := [(0, { state := .resident })] }
     let me := s.waiterId s.fr.handle
     s.sliceAddr? (s.rs 6) = some 0 ∧ (s.sliceAt 0).input = [] ∧ (s.ctxAt (me % 2 ^ 20)).state = .resident ∧
     (s.ctxAt (me % 2 ^ 20)).frame = s.cur ∧ (aCall 2 addBlock).waiter = me ∧ s.fr.arrflt.getLsbD 21 = false) ∧
    (let r : Run := { call := aCall 2 addBlock, words := 65, issued := 9, sinceBoundary := 2, abort := some 1 }
     r.issued < r.words ∧ r.issued < (start []).budgetOf r.call ∧ r.boundary = true ∧
     (Config.rowBoundary 2 9 = false → ({ r with sinceBoundary := 0 } : Run).boundary = false)) := by
  refine ⟨by decide +kernel, by decide +kernel, by decide +kernel, ?_⟩
  simp +contextual [Run.boundary, Call.rowByRow, aCall]

/-- BSPART: a bank in use, one beyond the quota, ways below the floor, and a change that is made. -/
theorem witness_MossCallsRun_modes :
    (let x : Slice := { queue := [aCall 2 addBlock] }
     (x.queue.any fun c => c.mask.testBit 0) = true) ∧
    (let s := { (start []).putPart 0 { bankQuota := 3 } with lines := [] }
     (s.part 0).bankQuota.toNat + 0 < s.banksHeld 0 + 16 ∧ ¬(s.part 0).bankQuota.toNat + 0 < s.banksHeld 0 + 1 ∧
     2 + 1 ≤ 16 + 0 ∧ 16 + 0 < 2 + 15 ∧ s.mem.wf = true ∧ s.lines = []) := by
  refine ⟨by decide +kernel, by decide +kernel⟩

/-- A policy of each kind, a frame that every policy may pick, and one outside the quad; a chunk that is abandoned with others still
running; layout records for a frame that has not run the job. -/
theorem witness_JobsAndChunks_policies :
    (([0x01, 0x11, 0x21, 0x31] : List Byte).map fun b => ({ aJob 4 0 with card := (aCard 4 0).set 28 b } : Job).policy) = [0, 1, 2, 3] ∧
    (let s := (working []).putFrame 0 { status := .ready, job := some 0 }
     (s.frameAt 8).status = .empty ∧ s.inQuad 0 (quadOf 0) = 1 ∧ s.inQuad 0 (quadOf 2) = 0 ∧ quadOf 2 ≠ quadOf 0 ∧
     s.fenced.getLsbD 0 = false ∧ s.pickFrame { aJob 4 0 with card := (aCard 4 0).set 28 0x11 } (fun n => n < 12) = some 8) ∧
    (let j := { aJob 4 64 with running := 2, dealt := 4 }
     1 < j.running ∧ j.status = .active ∧ j.refines = false ∧ 1 ≤ j.eligible ∧ j.dropped = false) ∧
    (let j := { aJob 1 0 with card := (aCard 1 0).set 29 1, layouts := (List.range 96).map (.ofNat 8 ·), windows := [1, 2, 3, 4, 5, 6, 7, 8] }
     let s := (working [j]).putFrame 0 { status := .loading, job := some 0, records := 1 }
     j.layoutCount ≠ 0 ∧ (s.frameAt 0).layoutJob ≠ some j.id ∧ s.mem.wf = true ∧ s.jobAt j.id = some j ∧ j.refines = false) := by
  and_intros <;> decide +kernel

/-- A multicast packet that its source still holds for one member, that has and has not refused it. -/
theorem witness_TransfersAndCollectives_refusal :
    (let b := { aBlock with kind := .mcst, sent := true }
     let s := queued b id
     s.blockById 0 b.id = some b ∧ (3 : Nat) ∉ b.bad ∧ (3 : Nat) ∈ ({ b with bad := [3] } : Block).bad ∧
     s.flowOut? (ingressOf (aPacket 2 2 0 []).sep.toNat) 3 2 = none ∧ (aPacket 2 2 0 []).cls = 2) := by decide +kernel

end Sys2Proof.Tests
end

/-! Scalar instructions: the divisions of R76 and the precise trap of BRK (R92). -/

/-! ### Groups of one halfword -/

namespace Sys2Proof

/-- A lone halfword that is no prefix is a group of its own without prefixes. -/
theorem takePrefixes_lone {h : Half} (hp : isPrefix h = false) : takePrefixes 5 [h] = ([], some h) := by
  simp [takePrefixes, hp]

/-- A lone Z-format halfword of page 0 decodes to its row of the Z map (R38). -/
theorem decode_lone_z {h : Half} {i : Instr} (hm : h.toNat / 2048 = 0)
    (hz : zRow 0 (h.toNat % 2048) = some (true, i)) : decode [h] = some (i, 1) := by
  have hp : isPrefix h = false := by simp [isPrefix, hm]
  simp [decode, takePrefixes_lone hp, readPrefixes, hm, hz, firstBad]

/-- A lone halfword of an R-format row of page 0 that takes any three registers decodes to the instruction of that row
on the registers of its three fields (R27, R37). -/
theorem decode_baseR {major fn : Nat} {op : SReg → SReg → SReg → Instr} (d a b : BitVec 3) (h0 : 0 < major)
    (h30 : major < 30) (hf : fn < 4)
    (hr : rowPage0 major fn = some
      { dK := .any, aK := .any, bK := .any, make := fun x => op (.ofNat 5 x.d) (.ofNat 5 x.a) (.ofNat 5 x.b) }) :
    decode [Claims.baseR major d.toNat a.toNat b.toNat fn] =
      some (op (d.setWidth 5) (a.setWidth 5) (b.setWidth 5), 1) := by
  have hv : (Claims.baseR major d.toNat a.toNat b.toNat fn).toNat =
      2048 * major + 256 * d.toNat + 32 * a.toNat + 4 * b.toNat + fn := by
    simp only [Claims.baseR, BitVec.toNat_ofNat]; omega
  generalize Claims.baseR major d.toNat a.toNat b.toNat fn = h at hv
  have hm : h.toNat / 2048 = major := by omega
  have hsz : h.toNat % 4 = fn := by omega
  have hd : h.toNat / 256 % 8 = d.toNat := by omega
  have ha : h.toNat / 32 % 8 = a.toNat := by omega
  have hb : h.toNat / 4 % 8 = b.toNat := by omega
  have hp : isPrefix h = false := by simp [isPrefix, hm, h30]
  simp [decode, takePrefixes_lone hp, readPrefixes, hm, hsz, h0.ne', rowOf, hr, decodeRow, hd, ha, hb, fieldBad,
    firstBad, immValue]

end Sys2Proof

/-! ### R76 -/

namespace Sys2Proof.Machine

theorem divSigned_zero (x : Word) : divSigned x 0 = (-1, x) := by simp [divSigned]

theorem divUnsigned_zero (x : Word) : divUnsigned x 0 = (-1, x) := by simp [divUnsigned]

theorem divSigned_overflow :
    divSigned 0x8000000000000000#64 0xFFFFFFFFFFFFFFFF#64 = (0x8000000000000000#64, 0) := by decide

/-- What is left of x when the truncated quotient times y is taken away is the truncated remainder. -/
theorem sub_tdiv_mul (x y : Word) :
    x - .ofInt 64 (x.toInt.tdiv y.toInt) * y = .ofInt 64 (x.toInt.tmod y.toInt) := by
  rw [BitVec.sub_eq_iff_eq_add]
  calc x = .ofInt 64 (x.toInt.tmod y.toInt + x.toInt.tdiv y.toInt * y.toInt) := by
        rw [Int.tmod_add_tdiv_mul, BitVec.ofInt_toInt]
    _ = _ := by rw [BitVec.ofInt_add, BitVec.ofInt_mul, BitVec.ofInt_toInt]

/-- What is left of x when the unsigned quotient times y is taken away is the unsigned remainder. -/
theorem sub_div_mul (x y : Word) :
    x - .ofNat 64 (x.toNat / y.toNat) * y = .ofNat 64 (x.toNat % y.toNat) := by
  rw [BitVec.sub_eq_iff_eq_add]
  calc x = .ofNat 64 (x.toNat % y.toNat + x.toNat / y.toNat * y.toNat) := by
        rw [Nat.mul_comm, Nat.mod_add_div]; simp
    _ = _ := by rw [BitVec.ofNat_add, BitVec.ofNat_mul]; simp

/-- Signed division apart from its two special cases is truncated division. -/
theorem divSigned_general {x y : Word} (h0 : y ≠ 0)
    (ho : ¬(x = 0x8000000000000000#64 ∧ y = 0xFFFFFFFFFFFFFFFF#64)) :
    divSigned x y = (.ofInt 64 (x.toInt.tdiv y.toInt), .ofInt 64 (x.toInt.tmod y.toInt)) := by
  have ho' : ¬(x = 0x8000000000000000#64 ∧ y = -1) := ho
  simp only [divSigned, if_neg h0, if_neg ho', sub_tdiv_mul]

/-- Unsigned division by a nonzero divisor is division of naturals. -/
theorem divUnsigned_general {x y : Word} (h0 : y ≠ 0) :
    divUnsigned x y = (.ofNat 64 (x.toNat / y.toNat), .ofNat 64 (x.toNat % y.toNat)) := by
  simp only [divUnsigned, if_neg h0, sub_div_mul]

end Sys2Proof.Machine

namespace Sys2Proof.Claims

open Sys2Proof.Machine

/-- A register-to-register operation outside a repetition gives S[d] its value and nothing else changes (R75). -/
theorem gives_of_alu2 {i : Instr} {s : State} {op : Word → Word → Word} {d a b : SReg}
    (hs : s.issue.inRep = false) (hi : exec i s = s.alu2 op d a b) :
    Gives i s (scalarResult s d (op (s.rs a) (s.rs b))) := by
  rw [Gives, hi, State.alu2_eq, State.done1_scalar _ _ _ hs]; rfl

section Division

variable {d a b : SReg} {s : State} {r : Word}

theorem div_gives (hs : s.issue.inRep = false) (hr : (divSigned (s.rs a) (s.rs b)).1 = r) :
    Gives (.div d a b) s (scalarResult s d r) :=
  hr ▸ gives_of_alu2 (op := fun x y => (divSigned x y).1) hs rfl

theorem divn_gives (hs : s.issue.inRep = false) (hr : (divUnsigned (s.rs a) (s.rs b)).1 = r) :
    Gives (.divn d a b) s (scalarResult s d r) :=
  hr ▸ gives_of_alu2 (op := fun x y => (divUnsigned x y).1) hs rfl

theorem rem_gives (hs : s.issue.inRep = false) (hr : (divSigned (s.rs a) (s.rs b)).2 = r) :
    Gives (.rem d a b) s (scalarResult s d r) :=
  hr ▸ gives_of_alu2 (op := fun x y => (divSigned x y).2) hs rfl

theorem remn_gives (hs : s.issue.inRep = false) (hr : (divUnsigned (s.rs a) (s.rs b)).2 = r) :
    Gives (.remn d a b) s (scalarResult s d r) :=
  hr ▸ gives_of_alu2 (op := fun x y => (divUnsigned x y).2) hs rfl

theorem mulh_gives (hs : s.issue.inRep = false) (hr : mulHigh (s.rs a) (s.rs b) = r) :
    Gives (.mulh d a b) s (scalarResult s d r) :=
  hr ▸ gives_of_alu2 (op := mulHigh) hs rfl

theorem mulhn_gives (hs : s.issue.inRep = false) (hr : mulHighN (s.rs a) (s.rs b) = r) :
    Gives (.mulhn d a b) s (scalarResult s d r) :=
  hr ▸ gives_of_alu2 (op := mulHighN) hs rfl

end Division

/-- Settles O2: the encodings by `decode_baseR`, the run's rows and the cases of the division by the laws of
`divSigned` and `divUnsigned`. -/
theorem divisionResults : Obligations.DivisionResults := by
  unfold Obligations.DivisionResults
  refine ⟨fun d a b => ?encodings, fun d a b s hs => ?rows, fun d a b s hs => ?cases⟩
  case encodings =>
    exact ⟨decode_baseR d a b (by decide) (by decide) (by decide) rfl,
      decode_baseR d a b (by decide) (by decide) (by decide) rfl,
      decode_baseR d a b (by decide) (by decide) (by decide) rfl,
      decode_baseR d a b (by decide) (by decide) (by decide) rfl⟩
  case rows =>
    refine ⟨fun ha hb => div_gives hs ?_, fun ha hb => rem_gives hs ?_, fun ha hb => divn_gives hs ?_,
      fun ha hb => rem_gives hs ?_, fun ha hb => div_gives hs ?_, fun ha hb => rem_gives hs ?_,
      fun ha hb => mulh_gives hs ?_, fun ha hb => mulhn_gives hs ?_⟩ <;> rw [ha, hb] <;> decide
  case cases =>
    refine ⟨fun h0 => ?zero, fun ⟨hx, hy⟩ => ?overflow, fun ⟨h0, ho⟩ => ?signed, fun h0 => ?unsigned⟩
    case zero =>
      have hq := h0 ▸ divSigned_zero (s.rs a)
      have hu := h0 ▸ divUnsigned_zero (s.rs a)
      exact ⟨div_gives hs (by rw [hq]; rfl), divn_gives hs (by rw [hu]; rfl), rem_gives hs (by rw [hq]),
        remn_gives hs (by rw [hu])⟩
    case overflow =>
      exact ⟨div_gives hs (by rw [hx, hy, divSigned_overflow]), rem_gives hs (by rw [hx, hy, divSigned_overflow])⟩
    case signed =>
      exact ⟨div_gives hs (by rw [divSigned_general h0 ho]), rem_gives hs (by rw [divSigned_general h0 ho])⟩
    case unsigned =>
      exact ⟨divn_gives hs (by rw [divUnsigned_general h0]), remn_gives hs (by rw [divUnsigned_general h0])⟩

end Sys2Proof.Claims

/-! ### R92 -/

namespace Sys2Proof.Machine

/-- TRAPC bits 7 to 0 hold the cause (R309). -/
theorem Frame.enterHandler_cause (f : Frame) (cause detail : Nat) (pc val : Word) (len jent : Nat) :
    (f.enterHandler cause detail pc val len jent).trapc.toNat % 2 ^ 8 = cause % 2 ^ 8 := by
  simp only [Frame.enterHandler, BitVec.toNat_ofNat]
  split <;> omega

/-- A frame that enters its handler runs in S: the fields below INH do not reach it (R309). -/
theorem Frame.enterHandler_inS (f : Frame) {cause detail len jent : Nat} (pc val : Word) (hc : cause < 2 ^ 8)
    (hd : detail < 2 ^ 8) (hl : len < 2 ^ 3) (hj : jent < 2 ^ 11) :
    (f.enterHandler cause detail pc val len jent).inS = true := by
  simp only [Frame.inS, Frame.enterHandler, BitVec.getLsbD_ofNat, Nat.testBit_eq_decide_div_mod_eq]
  split <;> simp <;> omega

/-- The issuing frame of a core keeps the issue slot (R131). -/
theorem State.startIssuing_of_issuing {s : State} {n : Nat} (h : (s.frameAt n).status = .issuing) :
    s.startIssuing n = { s with cur := n } := by
  simp [State.startIssuing, h]

/-- A group that R22 does not name never issues ahead of a repetition. -/
theorem State.issuesAhead_of_not_runsAhead (s : State) (n : Nat) {i : Instr} (h : runsAhead i = false) :
    s.issuesAhead n i = false := by
  simp [State.issuesAhead, Frame.mayRunAhead, h]

/-- While a repetition is active in a frame that nothing else calls upon, and the group at the PC is none that may run
ahead of it, the turn is the sequencer's (R22). -/
theorem State.issueFrame_sequencer {s t : State} {n : Nat} {g : Group} (late : Bool) (run : Instr → State → Result)
    (hst : (s.frameAt n).status = .issuing) (hstop : (s.frameAt n).stopping = none)
    (hasync : (s.frameAt n).asyncReady = false) (hrep : (s.frameAt n).repRunning = true)
    (hreplay : (s.frameAt n).replay = none)
    (ht : ({ s with cur := n } : State).sampleFlags (n / 4) (some (n / 4)) = t)
    (hmma : t.replaying n = false) (hfetch : t.fetchGroup n = .ok g) (hahead : runsAhead g.instr = false) :
    s.issueFrame n late run = (t.usedBank n).sequencerStep n late := by
  simp [State.issueFrame, hst, hstop, hasync, hrep, hreplay, State.startIssuing_of_issuing hst, ht, hmma, hfetch,
    State.issuesAhead_of_not_runsAhead _ _ hahead]

end Sys2Proof.Machine

namespace Sys2Proof.Claims

open Sys2Proof.Machine

/-- Sub fields 0x100 to 0x1FF of page 0's Z format are BRK (R38). -/
theorem zRow_brk (n : BitVec 8) : zRow 0 (256 + n.toNat) = some (true, .brk n) := by
  have hlt : n.toNat < 256 := n.isLt
  have hne (k : Nat) (hk : k < 256) : 256 + n.toNat ≠ k := by omega
  have hkind : (256 + n.toNat) / 256 = 1 := by omega
  have hn : BitVec.ofNat 8 (256 + n.toNat) = n := BitVec.eq_of_toNat_eq (by simp [hlt])
  simp [zRow, hne, hkind, hn]

/-- BRK n is the halfword 0x0100 + n (R92). -/
theorem decode_brk (n : BitVec 8) : decode [0x0100 + n.setWidth 16] = some (.brk n, 1) := by
  have hlt : n.toNat < 256 := n.isLt
  have hv : (0x0100 + n.setWidth 16 : Half).toNat = 256 + n.toNat := by
    simp [BitVec.toNat_add]; omega
  apply decode_lone_z <;> rw [hv]
  · omega
  · rw [Nat.mod_eq_of_lt (by omega), zRow_brk]

/-- BRK in a frame that has a handler enters it: TRAPPC at the BRK, n in TRAPVAL, nothing else changed (R92, R310). -/
theorem brk_enters_handler (n : BitVec 8) {s : State} (hr : s.issue.inRep = false) (hn : s.fr.noHandler = false) :
    Gives (.brk n) s (s.putFr (s.fr.enterHandler 0x0B 0 s.fr.pc (n.setWidth 64) s.issue.len 0)) :=
  congrArg _ (s.trap_handled 0x0B (n.setWidth 64) 0 hr hn)

/-- Settles O6: the encoding by `decode_brk`, the trap by `State.trap_handled`, the active repetition by
`State.issueFrame_sequencer`. -/
theorem breakIsPreciseTrap : Obligations.BreakIsPreciseTrap := by
  unfold Obligations.BreakIsPreciseTrap
  refine ⟨decode_brk, fun _ _ => rfl, fun n s hr hl hu hh hc => ?handler,
    fun n s k len last late run hst hstop hasync hrep hreplay hmma hfetch =>
      State.issueFrame_sequencer late run hst hstop hasync hrep hreplay rfl hmma hfetch rfl⟩
  case handler =>
    have hn : s.fr.noHandler = false := by simp [Frame.noHandler, hu, hh]
    refine ⟨_, brk_enters_handler n hr hn, ?_⟩
    rw [State.fr_putFr]
    refine ⟨rfl, rfl, Frame.enterHandler_cause .., ?_, ?_⟩
    · exact Frame.enterHandler_inS _ _ _ (by decide) (by decide) (by omega) (by decide)
    · simp only [Frame.enterHandler, ← hc]

end Sys2Proof.Claims

/-! Predicate instructions (R112): their encodings, what each writes, and the two bit counts they share with the scalar
pipeline. -/

/-! ### R-format groups of page 2 -/

namespace Sys2Proof

/-- The EXT halfword of page 2 with q 0, followed by an R-format base word whose fields their row accepts as three-bit
registers, decodes to that row (R26, R31, R40). -/
theorem decode_page2_baseR {major fn : Nat} {dK aK bK : FieldKind} {make : Flds → Instr} (d a b : BitVec 3)
    (h0 : 0 < major) (h30 : major < 30) (hf : fn < 4)
    (hr : rowPage2 major fn = some { dK := dK, aK := aK, bK := bK, make := make })
    (hd : fieldBad dK d.toNat 0 = (false, false)) (ha : fieldBad aK a.toNat 0 = (false, false))
    (hb : fieldBad bK b.toNat 0 = (false, false)) :
    decode [0xFA40#16, Claims.baseR major d.toNat a.toNat b.toNat fn] =
      some (make { q := 0, d := d.toNat, a := a.toNat, b := b.toNat, pred := 0, sz := fn, imm := 0, ord := {} }, 2) := by
  have hv : (Claims.baseR major d.toNat a.toNat b.toNat fn).toNat =
      2048 * major + 256 * d.toNat + 32 * a.toNat + 4 * b.toNat + fn := by
    simp only [Claims.baseR, BitVec.toNat_ofNat]; omega
  generalize Claims.baseR major d.toNat a.toNat b.toNat fn = h at hv
  have hm : h.toNat / 2048 = major := by omega
  have hsz : h.toNat % 4 = fn := by omega
  have hfd : h.toNat / 256 % 8 = d.toNat := by omega
  have hfa : h.toNat / 32 % 8 = a.toNat := by omega
  have hfb : h.toNat / 4 % 8 = b.toNat := by omega
  have hne : h ≠ 0#16 := by rintro rfl; simp at hm; omega
  have hp : isPrefix h = false := by simp [isPrefix, hm, h30]
  have hpage : isPrefix 0xFA40#16 = true := by decide
  have htake : takePrefixes 5 [0xFA40#16, h] = ([0xFA40#16], some h) := by simp [takePrefixes, hpage, hp]
  simp [decode, htake, readPrefixes, zMajor, hne, hm, hsz, rowOf, hr, decodeRow, hfd, hfa, hfb, hd, ha, hb, firstBad,
    immValue]

end Sys2Proof

/-! ### Bits of a word -/

namespace Sys2Proof.Machine

/-- The count of one bits is the number of positions that hold one. -/
theorem onesCount_eq_length_filter (w : Word) (n : Nat) :
    onesCount w n = ((List.range n).filter fun k => w.getLsbD k).length := by
  induction n with
  | zero => rfl
  | succ n ih =>
    rw [List.range_succ, List.filter_append, List.length_append, ← ih, onesCount, Nat.add_comm]
    cases h : w.getLsbD n <;> simp [h]

theorem trailingZeros_le (w : Word) (n i : Nat) : trailingZeros w n i ≤ n := by
  induction n generalizing i with
  | zero => exact Nat.le_refl 0
  | succ n ih => have := ih (i + 1); rw [trailingZeros]; split <;> omega

/-- The bits that trailingZeros passes over are zero. -/
theorem getLsbD_of_lt_trailingZeros {w : Word} {n i k : Nat} (hk : k < trailingZeros w n i) :
    w.getLsbD (i + k) = false := by
  induction n generalizing i k with
  | zero => simp [trailingZeros] at hk
  | succ n ih =>
    rw [trailingZeros] at hk
    split at hk
    case isTrue => omega
    case isFalse hi =>
      cases k with
      | zero => simpa using hi
      | succ k => rw [← Nat.add_assoc, Nat.add_right_comm]; exact ih (by omega)

/-- The bit at which trailingZeros stops short of its limit is one. -/
theorem getLsbD_trailingZeros {w : Word} {n i : Nat} (h : trailingZeros w n i < n) :
    w.getLsbD (i + trailingZeros w n i) = true := by
  induction n generalizing i with
  | zero => omega
  | succ n ih =>
    rw [trailingZeros] at h ⊢
    split
    case isTrue hi => exact hi
    case isFalse hi =>
      rw [if_neg hi] at h
      rw [← Nat.add_assoc]; exact ih (by omega)

/-- The whole word has no one bit exactly when the count runs to 64. -/
theorem trailingZeros_eq_64_iff (w : Word) : trailingZeros w 64 0 = 64 ↔ w = 0 := by
  constructor
  · intro h
    refine BitVec.eq_of_getLsbD_eq fun k hk => ?_
    simpa using getLsbD_of_lt_trailingZeros (w := w) (i := 0) (h ▸ hk)
  · rintro rfl; decide

/-! ### Vector groups that write one register -/

/-- A class that may use page 2 goes on with the group (R135). -/
theorem State.needVector_of_cls {s : State} (h : s.fr.cls ≠ 0) (k : State → State) : s.needVector k = k s := if_neg h

/-- A frame put in place of the issuing one retires its group (R20, R24). -/
theorem State.retire_putFr (s : State) (f : Frame) : (s.putFr f).retire = s.putFr (Claims.past s f) := by
  simp only [State.retire, Claims.past, State.putFr_issue, State.fr_putFr, State.putFr_putFr]
  split <;> rfl

end Sys2Proof.Machine

/-! ### R112 -/

namespace Sys2Proof.Claims

open Sys2Proof.Machine

/-- A page-2 group that ends with P[d] written changes nothing else (R112). -/
theorem gives_of_doneP {i : Instr} {s : State} {d : PReg} (w : State → Word) (hc : s.fr.cls ≠ 0)
    (hi : exec i s = .next (s.needVector fun s => s.doneP d (w s))) :
    Gives i s (s.putFr (past s (s.fr.setP d (w s)))) := by
  rw [Gives, hi, State.needVector_of_cls hc, State.doneP, State.retire_putFr]

/-- A page-2 group that ends with S[d] written changes nothing else (R112). -/
theorem gives_of_vector_done1 {i : Instr} {s : State} {d : SReg} (w : State → Word) (hc : s.fr.cls ≠ 0)
    (hi : exec i s = .next (s.needVector fun s => s.done1 d (w s))) :
    Gives i s (s.putFr (past s (s.fr.setS d (w s)))) := by
  rw [Gives, hi, State.needVector_of_cls hc, State.done1, State.ws, State.retire_putFr]

/-- PFFS finds the lowest one bit, and 64 where there is none (R112). -/
theorem pffs_gives (d : SReg) (a : PReg) {s : State} (hc : s.fr.cls ≠ 0) :
    ∃ n, Gives (.pffs d a) s (s.putFr (past s (s.fr.setS d (.ofNat 64 n)))) ∧
      (s.fr.getP a = 0 → n = 64) ∧
      (s.fr.getP a ≠ 0 → (s.fr.getP a).getLsbD n = true ∧ ∀ k, k < n → (s.fr.getP a).getLsbD k = false) := by
  refine ⟨trailingZeros (s.fr.getP a) 64 0, ?gives, (trailingZeros_eq_64_iff _).mpr,
    fun hne => ⟨?first, fun k hk => ?below⟩⟩
  case gives => exact gives_of_vector_done1 (fun s => .ofNat 64 (trailingZeros (s.fr.getP a) 64 0)) hc rfl
  case first =>
    have hlt : trailingZeros (s.fr.getP a) 64 0 < 64 :=
      lt_of_le_of_ne (trailingZeros_le ..) (mt (trailingZeros_eq_64_iff _).mp hne)
    simpa using getLsbD_trailingZeros hlt
  case below => simpa using getLsbD_of_lt_trailingZeros hk

/-- Settles O16: the encodings by `decode_page2_baseR`, the results by `gives_of_doneP`, `gives_of_vector_done1` and
`pffs_gives`. -/
theorem predicateResults : Obligations.PredicateResults := by
  unfold Obligations.PredicateResults
  refine ⟨fun d a b => ⟨?binary, ?unary⟩, fun d a b sd s hc => ⟨
    gives_of_doneP (fun s => s.fr.getP a &&& s.fr.getP b) hc rfl,
    gives_of_doneP (fun s => s.fr.getP a ||| s.fr.getP b) hc rfl,
    gives_of_doneP (fun s => s.fr.getP a ^^^ s.fr.getP b) hc rfl,
    gives_of_doneP (fun s => ~~~s.fr.getP a) hc rfl, gives_of_doneP (fun s => s.srcA sd) hc rfl, ?pcnt,
    pffs_gives sd a hc⟩⟩
  case binary =>
    simp only [List.forall_mem_cons, List.not_mem_nil, false_imp_iff, implies_true, and_true]
    refine ⟨(decode_page2_baseR d a b ?_ ?_ ?_ rfl rfl rfl rfl).trans ?_,
      (decode_page2_baseR d a b ?_ ?_ ?_ rfl rfl rfl rfl).trans ?_,
      (decode_page2_baseR d a b ?_ ?_ ?_ rfl rfl rfl rfl).trans ?_⟩ <;> simp
  case unary =>
    simp only [List.forall_mem_cons, List.not_mem_nil, false_imp_iff, implies_true, and_true]
    refine ⟨(decode_page2_baseR d a 0 ?_ ?_ ?_ rfl rfl rfl rfl).trans ?_,
      (decode_page2_baseR d a 0 ?_ ?_ ?_ rfl rfl rfl rfl).trans ?_,
      (decode_page2_baseR d a 0 ?_ ?_ ?_ rfl rfl rfl rfl).trans ?_,
      (decode_page2_baseR d a 0 ?_ ?_ ?_ rfl rfl rfl rfl).trans ?_⟩ <;> simp
  case pcnt =>
    rw [← onesCount_eq_length_filter]
    exact gives_of_vector_done1 (fun s => .ofNat 64 (onesCount (s.fr.getP a) 64)) hc rfl

end Sys2Proof.Claims
